-- ==== Sys2Proof/Word.lean ====
section
/-!
DEFINITION. The word types of the block: durations, timeouts and the command argument are `DW` = 32 bits wide, the
command and response words `CMDW` = `RSPW` = 40 bits, a DecodedWord 12 bits
(`00_scope.md` rule R6, `10_state.md` rule R21).
-/

namespace Sys2Proof

/-- A duration, a timeout, the command argument or the clock-period register: 32 bits, unsigned (`00_scope.md` R6). -/
abbrev Word := BitVec 32

/-- A 4-bit field of the command word (`30_encoding.md` R50). -/
abbrev Nibble := BitVec 4

/-- A command word, 40 bits (`30_encoding.md` R50). -/
abbrev CmdWord := BitVec 40

/-- A response word, 40 bits (`30_encoding.md` R55). -/
abbrev RspWord := BitVec 40

/-- A DecodedWord, 12 bits (`10_state.md` R21). -/
abbrev DataWord := BitVec 12

end Sys2Proof
end

