-- ==== Sys2Proof/Syntax.lean ====
section
/-!
DEFINITION. The six commands of the block, one constructor for each row of `spec/opcode_table.json`
(`30_encoding.md` rule R51).
-/

namespace Sys2Proof

/-- A command. `p` is a period in half-microseconds, `t` a timeout in microseconds, `nf` the no-fallback flag, `idx` a
pin index (`30_encoding.md` R51, R52). -/
inductive Instr where
  /-- `SETCP p` (`40_config.md` R70). -/
  | setcp (p : Word)
  /-- `CAL T` (`41_calibrate.md` R77). -/
  | cal (t : Word)
  /-- `CALAUTO T` (`nf` false) or `CALAUTO.NF T` (`nf` true) (`41_calibrate.md` R80). -/
  | calauto (nf : Bool) (t : Word)
  /-- `READ T` (`42_read.md` R94). -/
  | read (t : Word)
  /-- `READPIN i, T` (`43_accessors.md` R110); the encoding holds `idx` 0 to 15 only (`30_encoding.md` R52). -/
  | readpin (idx : Nat) (t : Word)
  /-- `READARR T` (`43_accessors.md` R113). -/
  | readarr (t : Word)
  deriving DecidableEq, Repr

end Sys2Proof
end

