-- ==== Sys2Proof/WellFormed.lean ====
section
/-!
DEFINITION. Which commands a host can write: the pin index must fit the 4-bit `aux` field (`30_encoding.md` rules R52,
R58); every other operand fits its field by its type.
-/

namespace Sys2Proof

/-- The operands of the command fit the encoding: `idx` is 0 to 15 (`30_encoding.md` R52, R58). -/
def Instr.wellFormed : Instr → Bool
  | .setcp _ => true
  | .cal _ => true
  | .calauto _ _ => true
  | .read _ => true
  | .readpin idx _ => decide (idx < 16)
  | .readarr _ => true

end Sys2Proof
end

