-- ==== Sys2Proof/Decode.lean ====
section
/-!
DEFINITION. The command word: its fields, the decoder, the encoder and the opcode table
(`30_encoding.md` rules R50 to R54, R60).
-/

namespace Sys2Proof

/-! Opcodes (`30_encoding.md` R51). -/

/-- Opcode of `SETCP`. -/
abbrev opcodeSetcp : Nibble := 0x1#4
/-- Opcode of `CAL`. -/
abbrev opcodeCal : Nibble := 0x2#4
/-- Opcode of `CALAUTO`. -/
abbrev opcodeCalauto : Nibble := 0x3#4
/-- Opcode of `READ`. -/
abbrev opcodeRead : Nibble := 0x4#4
/-- Opcode of `READPIN`. -/
abbrev opcodeReadpin : Nibble := 0x5#4
/-- Opcode of `READARR`. -/
abbrev opcodeReadarr : Nibble := 0x6#4

/-! Fields (`30_encoding.md` R50). -/

/-- `op` = `cmd[39:36]`. -/
def opField (w : CmdWord) : Nibble := w.extractLsb' 36 4
/-- `aux` = `cmd[35:32]`. -/
def auxField (w : CmdWord) : Nibble := w.extractLsb' 32 4
/-- `arg` = `cmd[31:0]`. -/
def argField (w : CmdWord) : Word := w.extractLsb' 0 32

/-- The command word `{op, aux, arg}`. -/
def cmdWord (op aux : Nibble) (arg : Word) : CmdWord := op ++ aux ++ arg

/-- Why a word is illegal (`30_encoding.md` R54). -/
inductive DecodeError where
  /-- `op` is 0x0 or 0x7 to 0xF. -/
  | reservedOpcode
  /-- `aux` is not legal for the `op`. -/
  | illegalAux
  deriving DecidableEq, Repr

/-- A command that needs `aux` = 0. -/
def withZeroAux (aux : Nibble) (i : Instr) : Except DecodeError Instr :=
  if aux = 0#4 then .ok i else .error .illegalAux

/-- The decoder: total on the 2^40 words, the opcode tested before `aux` (`30_encoding.md` R51 to R54). -/
def decode (w : CmdWord) : Except DecodeError Instr :=
  let op := opField w
  let aux := auxField w
  let arg := argField w
  if op = opcodeSetcp then withZeroAux aux (.setcp arg)
  else if op = opcodeCal then withZeroAux aux (.cal arg)
  else if op = opcodeCalauto then
    if aux.extractLsb' 1 3 = 0#3 then .ok (.calauto (aux.getLsbD 0) arg) else .error .illegalAux
  else if op = opcodeRead then withZeroAux aux (.read arg)
  else if op = opcodeReadpin then .ok (.readpin aux.toNat arg)
  else if op = opcodeReadarr then withZeroAux aux (.readarr arg)
  else .error .reservedOpcode

/-- The opcode of a command (`30_encoding.md` R51). -/
def Instr.opcode : Instr → Nibble
  | .setcp _ => opcodeSetcp
  | .cal _ => opcodeCal
  | .calauto _ _ => opcodeCalauto
  | .read _ => opcodeRead
  | .readpin _ _ => opcodeReadpin
  | .readarr _ => opcodeReadarr

/-- The `aux` field of a command: `nf` in bit 0 for `CALAUTO`, the index for `READPIN`, else 0 (`30_encoding.md` R52). -/
def Instr.aux : Instr → Nibble
  | .setcp _ => 0#4
  | .cal _ => 0#4
  | .calauto nf _ => if nf then 1#4 else 0#4
  | .read _ => 0#4
  | .readpin idx _ => BitVec.ofNat 4 idx
  | .readarr _ => 0#4

/-- The `arg` field of a command (`30_encoding.md` R51). -/
def Instr.arg : Instr → Word
  | .setcp p => p
  | .cal t => t
  | .calauto _ t => t
  | .read t => t
  | .readpin _ t => t
  | .readarr t => t

/-- The word of a well-formed command (`30_encoding.md` R50, R58). -/
def encode (i : Instr) : CmdWord := cmdWord i.opcode i.aux i.arg

/-- One row of `spec/opcode_table.json`: a word is the row's command when `word &&& mask = pattern`. -/
structure TableRow where
  mnemonic : String
  pattern : CmdWord
  mask : CmdWord
  deriving DecidableEq, Repr

/-- `spec/opcode_table.json`, its columns `mnemonic`, `match` and `mask`. -/
def opcodeTable : List TableRow :=
  [ ⟨"SETCP", 0x1000000000#40, 0xFF00000000#40⟩,
    ⟨"CAL", 0x2000000000#40, 0xFF00000000#40⟩,
    ⟨"CALAUTO", 0x3000000000#40, 0xFE00000000#40⟩,
    ⟨"READ", 0x4000000000#40, 0xFF00000000#40⟩,
    ⟨"READPIN", 0x5000000000#40, 0xF000000000#40⟩,
    ⟨"READARR", 0x6000000000#40, 0xFF00000000#40⟩ ]

/-- The word is one of the row's. -/
def TableRow.matchesWord (r : TableRow) (w : CmdWord) : Bool := w &&& r.mask == r.pattern

/-- The mnemonic of a command, as the table spells it. -/
def Instr.mnemonic : Instr → String
  | .setcp _ => "SETCP"
  | .cal _ => "CAL"
  | .calauto _ _ => "CALAUTO"
  | .read _ => "READ"
  | .readpin _ _ => "READPIN"
  | .readarr _ => "READARR"

/-- The command the decoder reads from a table row's word: one 40-bit word, its bits numbered as the table numbers them
(bit 0 the least significant), those above `nbits` zero. -/
def decodeTableWord (nbits w : Nat) : Option Instr :=
  let v := w % 2 ^ nbits
  if v < 2 ^ 40 then
    match decode (BitVec.ofNat 40 v) with
    | .ok i => some i
    | .error _ => none
  else none

end Sys2Proof
end

