-- ==== Sys2Proof/Config.lean ====
section
/-!
DEFINITION. What is fixed for the machine (`00_scope.md` rules R5, R6), the one parameter the spec leaves open (R7), and
the free values the output ports show where the spec gives them none.
-/

namespace Sys2Proof

/-! Constants the source fixes (`00_scope.md` R5). -/

/-- `NBITS`: data bits per frame. -/
abbrev Config.nbits : Nat := 12
/-- `SYNC_TRIES`: largest number of low pulses measured while seeking sync. -/
abbrev Config.syncTries : Nat := 13
/-- `SYNC_RATIO`: sync pulse length in periods. -/
abbrev Config.syncRatio : Nat := 36
/-- `ZERO_MULT`: a 0 bit is a high pulse of 2 periods. -/
abbrev Config.zeroMult : Nat := 2
/-- `DSTART_MULT`: data must start within 10 periods of the end of sync. -/
abbrev Config.dstartMult : Nat := 10
/-- `CAL_SAMPLES`: low pulses sampled by one calibration attempt. -/
abbrev Config.calSamples : Nat := 13
/-- `CAL_RATIO_FULL`: max/min ratio meaning period = min. -/
abbrev Config.calRatioFull : Nat := 36
/-- `CAL_RATIO_HALF`: max/min ratio meaning period = min/2. -/
abbrev Config.calRatioHalf : Nat := 18
/-- `CAL_ATTEMPTS`: attempts of the calibration policy. -/
abbrev Config.calAttempts : Nat := 5

/-- `CP2_MAX`: the largest legal period in half-microseconds (`00_scope.md` R6). -/
abbrev Config.cp2Max : Nat := 858993459

/-- `DEFAULT_CP2` less one, an OPEN parameter: any index of the legal range, with no value given (log 2, DESIGN CHOICE). -/
opaque Config.defaultIndex : Fin 858993459

/-- `DEFAULT_CP2`, the fallback period of `CALAUTO` in half-microseconds: any value from 1 to `CP2_MAX`, left open
(`00_scope.md` R7; log 2). -/
def Config.defaultCp2 : Nat := Config.defaultIndex.val + 1

/-! Free values of the output ports, one for each rising edge (log 3): no rule gives them. -/

/-- What port `cp` shows while `CPV` = 0 (`10_state.md` R12). -/
opaque Config.unspecifiedCp : Nat → Word
/-- What port `rsp` shows while `RSPV` = 0 (`10_state.md` R14). -/
opaque Config.unspecifiedRsp : Nat → RspWord
/-- What port `ps_req_kind` shows while `ps_req_valid` = 0 (`30_encoding.md` R57). -/
opaque Config.unspecifiedReqKind : Nat → BitVec 1
/-- What port `ps_req_level` shows while `ps_req_valid` = 0 (`30_encoding.md` R57). -/
opaque Config.unspecifiedReqLevel : Nat → BitVec 1
/-- What port `ps_req_tmo` shows while `ps_req_valid` = 0 (`30_encoding.md` R57). -/
opaque Config.unspecifiedReqTmo : Nat → Word

/-- A free line: whether line number `n` of the optional reference Pulse Source is `HIGH` throughout microsecond `t`, any
function of `t` (`20_memory.md` R43; log 8). -/
opaque Config.freeLine : Nat → Nat → Bool

end Sys2Proof
end

