-- ==== Sys2Proof/Machine/State.lean ====
section
/-!
DEFINITION. The state of the block (`10_state.md` rules R11 to R18), the state of the world outside it that one step
reads (`10_state.md` R25, `20_memory.md` R36, R43), the reset state (`10_state.md` R24), and the reasons a step can stop.
-/

namespace Sys2Proof.Machine

/-- A line level: `LOW` or `HIGH` (`00_scope.md` R8). -/
inductive Level where
  | low
  | high
  deriving DecidableEq, Repr

/-- A request on the Pulse Source channel, with its level and its timeout in microseconds (`20_memory.md` R31). -/
inductive Request where
  /-- `MEASURE(level, T)`. -/
  | measure (level : Level) (timeout : Word)
  /-- `WAIT(level, T)`. -/
  | wait (level : Level) (timeout : Word)
  deriving DecidableEq, Repr

/-- An answer of the Pulse Source: `Ok` answers a `WAIT`, `Dur(d)` a `MEASURE`, `TimedOut` either (`20_memory.md` R32). -/
inductive Answer where
  | timedOut
  | ok
  | dur (d : Word)
  deriving DecidableEq, Repr

/-- The sequencer phase `PH` (`10_state.md` R16). -/
inductive Phase where
  /-- No command is running. -/
  | idle
  /-- Source state `AwaitingSync`. -/
  | sync
  /-- Source state `AwaitingDataStart`. -/
  | dstart
  /-- Source state `ReceivingBits(count)`, with `count` = `K`. -/
  | bits
  /-- Clock Calibrator sampling. -/
  | cals
  deriving DecidableEq, Repr

/-- The outcomes of a command (`30_encoding.md` R55). -/
inductive Status where
  | ok
  | timeoutWaitingForSync
  | syncLostAfterPreamble
  | malformedDataPulse
  | calIndeterminate
  | calTimeout
  | calDegraded
  | outOfRange
  | readError
  | noData
  | notConfigured
  | badArg
  | illegalCmd
  deriving DecidableEq, Repr

/-- The source's DecodeResult: a word or one of three failures (`42_read.md` R101, R102). -/
inductive ReadResult where
  | ok (word : DataWord)
  | timeoutWaitingForSync
  | syncLostAfterPreamble
  | malformedDataPulse
  deriving DecidableEq, Repr

/-- How one calibration attempt ends: `Det(p)` with `p` in half-microseconds, `Indet`, or `Tmo` (`41_calibrate.md` R75,
R76). -/
inductive Attempt where
  | det (p : Nat)
  | indet
  | tmo
  deriving DecidableEq, Repr

/-- What the input ports of `10_state.md` R25 carry at one rising edge of `clk`, and, for the optional reference Pulse
Source only, how many microseconds of line time the host lets pass before this edge while the channel is idle
(`20_memory.md` R44; log 9). -/
structure Edge where
  rst : Bool
  cmdValid : Bool
  cmd : CmdWord
  ansValid : Bool
  ansTimedout : Bool
  ansDur : Word
  elapsed : Nat
  deriving DecidableEq, Repr

/-- Nothing is presented. -/
def Edge.quiet : Edge :=
  { rst := false, cmdValid := false, cmd := 0#40, ansValid := false, ansTimedout := false, ansDur := 0#32, elapsed := 0 }

/-- How a line goes on after its written runs, for ever (`20_memory.md` R43; log 8). -/
inductive LineTail where
  /-- It keeps one level. -/
  | hold (level : Level)
  /-- It repeats these runs; runs of no length at all leave it `LOW`. -/
  | cycle (runs : List (Level × Nat))
  /-- It is any function of time: the free line of that number. -/
  | free (number : Nat)
  deriving DecidableEq, Repr

/-- A line as plain data: runs of a level and a length in microseconds, from position 0, and how it goes on after them.
With no runs and a free tail it is any line (`20_memory.md` R43; log 8). -/
structure Line where
  runs : List (Level × Nat)
  tail : LineTail
  deriving DecidableEq, Repr

/-- The optional reference Pulse Source: a line and the channel's position on it (`20_memory.md` R43). -/
structure RefSource where
  line : Line
  now : Nat
  deriving DecidableEq, Repr

end Sys2Proof.Machine

namespace Sys2Proof.Machine

/-- The state. The first eighteen fields are the whole state of the block (`10_state.md` R11 to R19); the last three are
the model's own: the outside world (log 4, log 8) and the counter the free values of the ports are drawn by (log 3). -/
structure State where
  /-- `PH` (R16). -/
  ph : Phase
  /-- `REQ`, the request whose answer is not yet consumed (R18). -/
  req : Option Request
  /-- `CPV`, clock-period valid (R12). -/
  cpv : Bool
  /-- `CP`, the clock period in half-microseconds (R11). -/
  cp : Word
  /-- `RSPV`, response valid (R14). -/
  rspv : Bool
  /-- `RSP`, the response register (R14). -/
  rsp : RspWord
  /-- `OPL`, opcode of the running command (R17). -/
  opl : Nibble
  /-- `AUXL`, `aux` of the running command (R17). -/
  auxl : Nibble
  /-- `TL`, `arg` of the running command (R17). -/
  tl : Word
  /-- `CPL`, copy of `CP` for the running read (R17). -/
  cpl : Word
  /-- `N`, low pulses measured (R17). -/
  n : BitVec 4
  /-- `K`, data bits received (R17). -/
  k : BitVec 4
  /-- `ACC`, the bit accumulator (R17). -/
  acc : DataWord
  /-- `MINR`, least duration of the attempt (R17). -/
  minr : Word
  /-- `MAXR`, greatest duration of the attempt (R17). -/
  maxr : Word
  /-- `A`, calibration attempts finished (R17). -/
  a : BitVec 3
  /-- `KD`, attempts that determined a period (R17). -/
  kd : BitVec 3
  /-- `SUM`, sum of the determined periods (R17). -/
  sum : BitVec 35
  /-- What the outside world presents at each coming rising edge, next first; beyond its end nothing is presented. -/
  inputs : List Edge
  /-- The number of rising edges so far. -/
  edges : Nat
  /-- The optional reference Pulse Source, where it is attached. -/
  ref : Option RefSource
  deriving DecidableEq, Repr

/-- The state after reset: `PH` = `IDLE`, `REQ` = none, `CPV` = 0, `RSPV` = 0 (`10_state.md` R24, `70_reset_and_hazards.md`
R140). The registers R24 gives no value hold 0 (log 1, DESIGN CHOICE); the world presents nothing (log 4). -/
def State.reset : State where
  ph := .idle
  req := none
  cpv := false
  cp := 0#32
  rspv := false
  rsp := 0#40
  opl := 0#4
  auxl := 0#4
  tl := 0#32
  cpl := 0#32
  n := 0#4
  k := 0#4
  acc := 0#12
  minr := 0#32
  maxr := 0#32
  a := 0#3
  kd := 0#3
  sum := 0#35
  inputs := []
  edges := 0
  ref := none

/-- Why the machine stops. Both are raised by an answer step in a state that no run reaches (`Sys2Proof.Machine.State.Inv`
rules them out), where no rule of the spec is enabled (log 6). Safe: the model stops where the spec says nothing. -/
inductive Fault where
  /-- An answer step found `REQ`, or the kind of the answer, not to be the one its phase names (`10_state.md` R16, R18).
  Safe. -/
  | requestMismatch
  /-- The end of a read found `OPL` naming no read command, or the end of an attempt found it naming no calibration
  command (`10_state.md` R17). Safe. -/
  | opcodeMismatch
  deriving DecidableEq, Repr

/-- Why an instruction has no meaning. -/
inductive Refusal where
  /-- Raised by an arm of `exec` for an instruction not modelled yet; no arm raises it now. Safe. -/
  | notModelled (mnemonic : String)
  deriving DecidableEq, Repr

/-- The outcome of a step of this machine. -/
abbrev Result := Host.Outcome State Fault Refusal

end Sys2Proof.Machine
end

