-- ==== Sys2Proof/Machine/Flags.lean ====
section
/-!
DEFINITION. The tests the block makes on numbers, all exact integer comparisons (`00_scope.md` rule R8): the period's
legal range, the three windows of a read (`42_read.md` rules R90 to R93), the classification of a burst
(`41_calibrate.md` rule R75), and the flags derived from state (`10_state.md` rule R15).
-/

namespace Sys2Proof.Machine

/-- A legal period in half-microseconds: `1 <= p <= CP2_MAX` (`10_state.md` R11, `40_config.md` R70). -/
abbrev LegalPeriod (p : Nat) : Prop := 1 ≤ p ∧ p ≤ Config.cp2Max

/-- The window `[m * lower, m * upper]` at `CPL = c`, with `lower = (2/5) * c` and `upper = (3/5) * c` microseconds, both
ends included, tested without division (`42_read.md` R90). -/
abbrev InWindow (m c d : Nat) : Prop := m * (2 * c) ≤ 5 * d ∧ 5 * d ≤ m * (3 * c)

/-- `ONE(d)`: a high pulse of one period (`42_read.md` R91). -/
abbrev OneWindow (c d : Nat) : Prop := InWindow 1 c d

/-- `ZERO(d)`: a high pulse of two periods (`42_read.md` R92). -/
abbrev ZeroWindow (c d : Nat) : Prop := InWindow Config.zeroMult c d

/-- `SYNCW(d)`: a low pulse of 36 periods (`42_read.md` R93). -/
abbrev SyncWindow (c d : Nat) : Prop := InWindow Config.syncRatio c d

/-- The bit discriminator: 1 in `ONE`, 0 in `ZERO`, none elsewhere (`42_read.md` R98). -/
def bitOf (c d : Nat) : Option Bool :=
  if OneWindow c d then some true
  else if ZeroWindow c d then some false
  else none

/-- The ratio `mx / mn` lies within 10% of `r`, both ends included: `0.9 * r <= mx / mn <= 1.1 * r`, by
cross-multiplication (`41_calibrate.md` R75: 324 and 396 for 36, 162 and 198 for 18). -/
abbrev RatioNear (r mn mx : Nat) : Prop := 9 * r * mn ≤ 10 * mx ∧ 10 * mx ≤ 11 * r * mn

/-- `classify(mn, mx)` (`41_calibrate.md` R75): `Det(2*mn)` at a ratio near 36, `Det(mn)` near 18, else `Indet`. -/
def classify (mn mx : Nat) : Attempt :=
  if mn = 0 then .indet
  else if RatioNear Config.calRatioFull mn mx then .det (2 * mn)
  else if RatioNear Config.calRatioHalf mn mx then .det mn
  else .indet

/-- `BUSY = (PH != IDLE)` (`10_state.md` R15). -/
def State.busy (s : State) : Bool := decide (s.ph ≠ .idle)

end Sys2Proof.Machine
end

