-- ==== Sys2Proof/Machine/Operands.lean ====
section
/-!
DEFINITION. The operand forms: the pin index and the array (`10_state.md` rule R22), the no-fallback flag
(`30_encoding.md` rule R52), the timeouts and requests of each phase (`20_memory.md` rule R42, `10_state.md` rule R16),
and the answer ports (`30_encoding.md` rule R57).
-/

namespace Sys2Proof.Machine

/-- Pin `i` of a word is `word[i]`: 0 the last received bit, 11 the first (`10_state.md` R22). -/
def pinBit (w : DataWord) (i : Nat) : Bool := w.getLsbD i

/-- The array of a word: element `j` is `word[11 - j]`, the first received bit first (`43_accessors.md` R113). -/
def arrayOf (w : DataWord) : List Bool :=
  [w.getLsbD 11, w.getLsbD 10, w.getLsbD 9, w.getLsbD 8, w.getLsbD 7, w.getLsbD 6,
   w.getLsbD 5, w.getLsbD 4, w.getLsbD 3, w.getLsbD 2, w.getLsbD 1, w.getLsbD 0]

/-- Element `j` of a sequence of bits on bit `j` of a payload, the bits above its end 0 (`43_accessors.md` R113). -/
def packBits : List Bool → Word
  | [] => 0#32
  | b :: bs => (packBits bs <<< 1) ||| (if b then 1#32 else 0#32)

/-- One more received bit: the accumulator shifts left by one and takes the bit (`42_read.md` R98, R99). -/
def shiftIn (acc : DataWord) (b : Bool) : DataWord := (acc <<< 1) ||| (if b then 1#12 else 0#12)

/-- `nf` = `aux[0]` (`30_encoding.md` R52). -/
def noFallback (aux : Nibble) : Bool := aux.getLsbD 0

/-- The data-start timeout `5 * CPL` microseconds, that is 10 periods (`42_read.md` R97, `20_memory.md` R42). -/
def dataStartTimeout (cpl : Word) : Word := BitVec.ofNat 32 (5 * cpl.toNat)

/-- The request outstanding in each phase (`10_state.md` R16). -/
def State.phaseRequest (s : State) : Option Request :=
  match s.ph with
  | .idle => none
  | .sync => some (.measure .low s.tl)
  | .dstart => some (.wait .low (dataStartTimeout s.cpl))
  | .bits => some (.measure .high s.tl)
  | .cals => some (.measure .low s.tl)

/-- The answer the ports carry to a request: `ps_ans_timedout` = 1 is `TimedOut`; else `Ok` for a `WAIT`, whose
`ps_ans_dur` is ignored, and `Dur(ps_ans_dur)` for a `MEASURE` (`30_encoding.md` R57). -/
def Edge.answerTo (e : Edge) (r : Request) : Answer :=
  if e.ansTimedout then .timedOut
  else
    match r with
    | .wait _ _ => .ok
    | .measure _ _ => .dur e.ansDur

/-- The three read commands (`42_read.md` R94). -/
abbrev IsReadOpcode (op : Nibble) : Prop := op = opcodeRead ∨ op = opcodeReadpin ∨ op = opcodeReadarr

/-- The two calibration commands (`41_calibrate.md` R78). -/
abbrev IsCalOpcode (op : Nibble) : Prop := op = opcodeCal ∨ op = opcodeCalauto

end Sys2Proof.Machine
end

