-- ==== Sys2Proof/Machine/PulseSource.lean ====
section
/-!
DEFINITION. The optional reference Pulse Source over a line (`20_memory.md` rules R43 to R46; log 8, log 9). The core's
rules do not use it: it stands in for the answer ports where a state attaches it. The answers are defined over any function
`L` of time; a state names its line as data.
-/

namespace Sys2Proof.Machine

/-! ## The line -/

/-- The level `t` microseconds into a list of runs, and `rest` after the last. -/
def levelIn : List (Level × Nat) → (Nat → Level) → Nat → Level
  | [], rest, t => rest t
  | (l, len) :: rs, rest, t => if t < len then l else levelIn rs rest (t - len)

/-- The length of a list of runs. -/
def runsLength : List (Level × Nat) → Nat
  | [] => 0
  | (_, len) :: rs => len + runsLength rs

/-- The level `t` microseconds after the written runs. -/
def LineTail.level : LineTail → Nat → Level
  | .hold l, _ => l
  | .cycle rs, t => levelIn rs (fun _ => .low) (t % runsLength rs)
  | .free n, t => if Config.freeLine n t then .high else .low

/-- `L(t)`: the level throughout microsecond `t` (`20_memory.md` R43). -/
def Line.level (ln : Line) (t : Nat) : Level := levelIn ln.runs ln.tail.level t

/-! ## The answers -/

/-- The least of the `count` positions from `t` on that satisfies `P`, if there is one. -/
def leastFrom (P : Nat → Bool) : Nat → Nat → Option Nat
  | 0, _ => none
  | count + 1, t => if P t then some t else leastFrom P count (t + 1)

/-- `WAIT(level, T)` issued at `t0`: the answer and the return position; `s` is sought from `t0` to `t0 + T`
(`20_memory.md` R45). -/
def waitAnswer (L : Nat → Level) (level : Level) (T t0 : Nat) : Answer × Nat :=
  match leastFrom (fun s => L s = level) (T + 1) t0 with
  | some s => (.ok, s)
  | none => (.timedOut, t0 + T + 1)

/-- A transition into `level` at `s` (`20_memory.md` R46). -/
abbrev StartsPulse (L : Nat → Level) (level : Level) (s : Nat) : Prop := L s = level ∧ L (s - 1) ≠ level

/-- `MEASURE(level, T)` issued at `t0`: the answer and the return position; `s` is sought from `t0 + 1` to `t0 + T` and `e`
from `s + 1` to `s + T` (`20_memory.md` R46). -/
def measureAnswer (L : Nat → Level) (level : Level) (T t0 : Nat) : Answer × Nat :=
  match leastFrom (fun s => StartsPulse L level s) T (t0 + 1) with
  | none => (.timedOut, t0 + T + 1)
  | some s =>
    match leastFrom (fun e => L e ≠ level) T (s + 1) with
    | none => (.timedOut, s + T + 1)
    | some e => (.dur (BitVec.ofNat 32 (e - s)), e)

/-- The reference source's answer to a request issued at its position, and its return position. -/
def RefSource.answer (p : RefSource) (r : Request) : Answer × Nat :=
  match r with
  | .wait level t => waitAnswer p.line.level level t.toNat p.now
  | .measure level t => measureAnswer p.line.level level t.toNat p.now

/-- The reference source at another position. -/
def RefSource.moveTo (p : RefSource) (now : Nat) : RefSource := { p with now := now }

end Sys2Proof.Machine
end

