-- ==== Sys2Proof/Machine/Ops.lean ====
section
/-!
DEFINITION. The shared operations on the state: the common part of the accept step (`30_encoding.md` rule R53), issuing a
request (`00_scope.md` rule R9), completing a command (`60_exceptions.md` rule R127), writing the period
(`10_state.md` rules R12, R13), the reset step (`70_reset_and_hazards.md` rule R140), and the passage of one rising edge.
The block has no exception and no return from one (`60_exceptions.md` R120, R128): `complete` is the one way a command
ends, well or badly.
-/

namespace Sys2Proof.Machine

/-- The status codes (`30_encoding.md` R55). -/
def Status.code : Status → BitVec 8
  | .ok => 0x00#8
  | .timeoutWaitingForSync => 0x01#8
  | .syncLostAfterPreamble => 0x02#8
  | .malformedDataPulse => 0x03#8
  | .calIndeterminate => 0x04#8
  | .calTimeout => 0x05#8
  | .calDegraded => 0x06#8
  | .outOfRange => 0x07#8
  | .readError => 0x08#8
  | .noData => 0x09#8
  | .notConfigured => 0x0A#8
  | .badArg => 0x0B#8
  | .illegalCmd => 0x0C#8

/-- The response word `{status[7:0], payload[31:0]}` (`60_exceptions.md` R127). -/
def rspWord (st : Status) (payload : Word) : RspWord := st.code ++ payload

/-- `RSP.status` = `RSP[39:32]` (`10_state.md` R14). -/
def rspStatus (r : RspWord) : BitVec 8 := r.extractLsb' 32 8

/-- `RSP.payload` = `RSP[31:0]` (`10_state.md` R14). -/
def rspPayload (r : RspWord) : Word := r.extractLsb' 0 32

/-- The common part of every accept step: `RSPV` falls and the command word is latched (`30_encoding.md` R53). -/
def State.accept (s : State) (op aux : Nibble) (arg : Word) : State :=
  { s with rspv := false, opl := op, auxl := aux, tl := arg }

/-- `issue`: place a request in the request slot (`00_scope.md` R9). -/
def State.issue (s : State) (r : Request) : State := { s with req := some r }

/-- `complete(status, payload)` (`60_exceptions.md` R127). -/
def State.complete (s : State) (st : Status) (payload : Word) : State :=
  { s with rsp := rspWord st payload, rspv := true, ph := .idle, req := none }

/-- `CP <- p; CPV <- 1` (`10_state.md` R12). -/
def State.setPeriod (s : State) (p : Word) : State := { s with cp := p, cpv := true }

/-- The common accept step of the read commands: `NotConfigured` while `CPV` = 0, else the period is copied and the
search for sync begins (`42_read.md` R94). -/
def State.startRead (s : State) : State :=
  if s.cpv then ({ s with cpl := s.cp, n := 0#4, ph := .sync }).issue (.measure .low s.tl)
  else s.complete .notConfigured 0#32

/-- A calibration command ends: an installed period is written and reported, else payload 0 (`41_calibrate.md` R79, R84,
`30_encoding.md` R56). -/
def State.endCalibration (s : State) (st : Status) (p : Option Nat) : State :=
  match p with
  | some v => (s.setPeriod (BitVec.ofNat 32 v)).complete st (BitVec.ofNat 32 v)
  | none => s.complete st 0#32

/-- The reset step (`70_reset_and_hazards.md` R140): the block is in its reset state, the outside world goes on
(log 12 for the registers that hold no value). -/
def State.resetStep (s : State) : State :=
  { State.reset with inputs := s.inputs, edges := s.edges, ref := s.ref }

/-- What the input ports carry at the coming edge. -/
def State.edge (s : State) : Edge :=
  match s.inputs with
  | [] => Edge.quiet
  | e :: _ => e

/-- Line time passes before an edge only while the channel is idle or the block is reset (`20_memory.md` R44; log 9). -/
def State.passTime (s : State) (e : Edge) : Option RefSource :=
  match s.ref with
  | none => none
  | some p => if s.req = none ∨ e.rst = true then some (p.moveTo (p.now + e.elapsed)) else some p

/-- The coming edge is taken from the inputs: no register of the block changes. -/
def State.tick (s : State) : State :=
  { s with inputs := s.inputs.tail, edges := s.edges + 1, ref := s.passTime s.edge }

/-- The answer present at edge `e` to the outstanding request, and the state with it consumed from the channel: from the
answer ports (`30_encoding.md` R57), or from the reference source where it is attached. None while `REQ` = none. -/
def State.takeAnswer (s : State) (e : Edge) : Option (Answer × State) :=
  match s.req with
  | none => none
  | some r =>
    match s.ref with
    | none => if e.ansValid then some (e.answerTo r, s) else none
    | some p =>
      let ans := p.answer r
      some (ans.1, { s with ref := some (p.moveTo ans.2) })

end Sys2Proof.Machine
end

