-- ==== Sys2Proof/Machine/Accessors.lean ====
section
/-!
DEFINITION. `READPIN` and `READARR`: their accept steps (`43_accessors.md` rules R110, R111, R113) and how they report a
decode (R110, R112, R113, R114).
-/

namespace Sys2Proof.Machine

/-- `READPIN i, T`: an index above 11 is `OutOfRange`, tested before `CPV` (`43_accessors.md` R110, R111). -/
def execReadpin (idx : Nat) (t : Word) (s : State) : Result :=
  let s := s.accept opcodeReadpin (BitVec.ofNat 4 idx) t
  if 11 < idx then .next (s.complete .outOfRange 0#32)
  else .next s.startRead

/-- The status and payload `READPIN i` reports (`43_accessors.md` R110, R112). -/
def readpinReport (idx : Nat) : ReadResult → Status × Word
  | .ok w => (.ok, if pinBit w idx then 1#32 else 0#32)
  | .timeoutWaitingForSync => (.readError, 0#32)
  | .syncLostAfterPreamble => (.readError, 0#32)
  | .malformedDataPulse => (.readError, 0#32)

/-- `READARR T` (`43_accessors.md` R113). -/
def execReadarr (t : Word) (s : State) : Result :=
  .next (s.accept opcodeReadarr 0#4 t).startRead

/-- The status and payload `READARR` reports (`43_accessors.md` R113, R114). -/
def readarrReport : ReadResult → Status × Word
  | .ok w => (.ok, packBits (arrayOf w))
  | .timeoutWaitingForSync => (.noData, 0#32)
  | .syncLostAfterPreamble => (.noData, 0#32)
  | .malformedDataPulse => (.noData, 0#32)

end Sys2Proof.Machine
end

