-- ==== Sys2Proof/Machine/Calibrate.lean ====
section
/-!
DEFINITION. The Clock Calibrator: the accept steps of `CAL` and `CALAUTO` (`41_calibrate.md` rules R77, R80), the answer
step of phase `CALS` (R78) and the ends of an attempt (R79, R81, R82, R84).
-/

namespace Sys2Proof.Machine

/-- A burst begins: `N` is 0 and the first low pulse is requested (`41_calibrate.md` R77, R80). -/
def State.startBurst (s : State) : State :=
  ({ s with n := 0#4, ph := .cals }).issue (.measure .low s.tl)

/-- `CAL T` (`41_calibrate.md` R77). -/
def execCal (t : Word) (s : State) : Result :=
  .next (s.accept opcodeCal 0#4 t).startBurst

/-- `CALAUTO T` and `CALAUTO.NF T` (`41_calibrate.md` R80). -/
def execCalauto (nf : Bool) (t : Word) (s : State) : Result :=
  let s := s.accept opcodeCalauto (Instr.calauto nf t).aux t
  .next ({ s with a := 0#3, kd := 0#3, sum := 0#35 }).startBurst

/-- How `CAL` ends: its status and the period it installs (`41_calibrate.md` R79). -/
def calOutcome : Attempt → Status × Option Nat
  | .det p => (.ok, some p)
  | .indet => (.calIndeterminate, none)
  | .tmo => (.calTimeout, none)

/-- `finish(kd, sum)`: how `CALAUTO` ends after five attempts: the floored average, the default period, or no period
(`41_calibrate.md` R84). -/
def finishOutcome (nf : Bool) (kd sum : Nat) : Status × Option Nat :=
  if 0 < kd then (.ok, some (sum / kd))
  else if nf then (.calIndeterminate, none)
  else (.calDegraded, some Config.defaultCp2)

/-- End of an attempt of `CALAUTO` that did not time out: the counts after it, then the next attempt or `finish`
(`41_calibrate.md` R81); `p` is the period it determined, if any. -/
def State.autoAttemptDone (s : State) (p : Option Nat) : State :=
  let s' : State :=
    match p with
    | some v => { s with a := s.a + 1#3, kd := s.kd + 1#3, sum := s.sum + BitVec.ofNat 35 v }
    | none => { s with a := s.a + 1#3 }
  if s'.a.toNat < Config.calAttempts then s'.startBurst
  else
    let out := finishOutcome (noFallback s'.auxl) s'.kd.toNat s'.sum.toNat
    s'.endCalibration out.1 out.2

/-- `attemptEnd` for `CAL` (`41_calibrate.md` R79). -/
def State.calAttemptEnd (s : State) (r : Attempt) : State :=
  s.endCalibration (calOutcome r).1 (calOutcome r).2

/-- `attemptEnd` for `CALAUTO` (`41_calibrate.md` R81, R82). -/
def State.autoAttemptEnd (s : State) (r : Attempt) : State :=
  match r with
  | .det p => s.autoAttemptDone (some p)
  | .indet => s.autoAttemptDone none
  | .tmo => s.complete .calTimeout 0#32

/-- `attemptEnd`, by the running command (`41_calibrate.md` R78). -/
def attemptEnd (r : Attempt) (s : State) : Result :=
  if s.opl = opcodeCal then .next (s.calAttemptEnd r)
  else if s.opl = opcodeCalauto then .next (s.autoAttemptEnd r)
  else .fault .opcodeMismatch

/-- A duration is recorded: `MINR`, `MAXR` and `N` (`41_calibrate.md` R78); the first of an attempt writes both. -/
def State.recordSample (s : State) (d : Word) : State :=
  { s with
    minr := if s.n = 0#4 then d else if d.toNat < s.minr.toNat then d else s.minr
    maxr := if s.n = 0#4 then d else if s.maxr.toNat < d.toNat then d else s.maxr
    n := s.n + 1#4 }

/-- The `CALS` answer step (`41_calibrate.md` R78). -/
def calsAnswer (ans : Answer) (s : State) : Result :=
  match ans with
  | .timedOut => attemptEnd .tmo s
  | .dur d =>
    let s' := s.recordSample d
    if s'.n.toNat < Config.calSamples then .next (s'.issue (.measure .low s'.tl))
    else attemptEnd (classify s'.minr.toNat s'.maxr.toNat) s'
  | .ok => .fault .requestMismatch

end Sys2Proof.Machine
end

