-- ==== Sys2Proof/Machine/Configure.lean ====
section
/-!
DEFINITION. `SETCP` (`40_config.md` rules R70 to R72), and the completion of an illegal word (`30_encoding.md` rule R54).
-/

namespace Sys2Proof.Machine

/-- `SETCP p`: a legal period is installed, any other gives `BadArg` (`40_config.md` R70, R71). -/
def execSetcp (p : Word) (s : State) : Result :=
  let s := s.accept opcodeSetcp 0#4 p
  if LegalPeriod p.toNat then .next ((s.setPeriod p).complete .ok p)
  else .next (s.complete .badArg 0#32)

/-- A word that is no command: latched and completed with `IllegalCmd` (`30_encoding.md` R53, R54). -/
def acceptIllegal (w : CmdWord) (s : State) : State :=
  (s.accept (opField w) (auxField w) (argField w)).complete .illegalCmd 0#32

end Sys2Proof.Machine
end

