-- ==== Sys2Proof/Machine/Read.lean ====
section
/-!
DEFINITION. `READ`: its accept step (`42_read.md` rule R94) and how it reports a decode (R101).
-/

namespace Sys2Proof.Machine

/-- `READ T` (`42_read.md` R94). -/
def execRead (t : Word) (s : State) : Result :=
  .next (s.accept opcodeRead 0#4 t).startRead

/-- The status and payload `READ` reports (`42_read.md` R101). -/
def readReport : ReadResult → Status × Word
  | .ok w => (.ok, w.setWidth 32)
  | .timeoutWaitingForSync => (.timeoutWaitingForSync, 0#32)
  | .syncLostAfterPreamble => (.syncLostAfterPreamble, 0#32)
  | .malformedDataPulse => (.malformedDataPulse, 0#32)

end Sys2Proof.Machine
end

