-- ==== Sys2Proof/Machine/Dispatch.lean ====
section
/-!
DEFINITION. The dispatch of the accept step on the command (`30_encoding.md` rule R53): one arm for each row of the opcode
table. It is enabled when `PH = IDLE` (`10_state.md` rule R15), which `clockEdge` tests.
-/

namespace Sys2Proof.Machine

/-- The accept step of a command (`30_encoding.md` R53). -/
def exec (i : Instr) (s : State) : Host.Outcome State Fault Refusal :=
  match i with
  | .setcp p => Sys2Proof.Machine.execSetcp p s
  | .cal t => Sys2Proof.Machine.execCal t s
  | .calauto nf t => Sys2Proof.Machine.execCalauto nf t s
  | .read t => Sys2Proof.Machine.execRead t s
  | .readpin idx t => Sys2Proof.Machine.execReadpin idx t s
  | .readarr t => Sys2Proof.Machine.execReadarr t s

end Sys2Proof.Machine
end

