-- ==== Sys2Proof/Machine/Frame.lean ====
section
/-!
DEFINITION. The Frame Decoder's answer steps, shared by the three read commands: `SYNC` (`42_read.md` rule R95), `DSTART`
(R97), `BITS` (R98), and `readEnd` by the running command (R101, `43_accessors.md` rules R112, R114).
-/

namespace Sys2Proof.Machine

/-- What the running read command reports for a decode; none where `OPL` names no read command. -/
def State.report (s : State) (r : ReadResult) : Option (Status × Word) :=
  if s.opl = opcodeRead then some (readReport r)
  else if s.opl = opcodeReadpin then some (readpinReport s.auxl.toNat r)
  else if s.opl = opcodeReadarr then some (readarrReport r)
  else none

/-- `readEnd` (`42_read.md` R101, `43_accessors.md` R110, R112 to R114). -/
def readEnd (r : ReadResult) (s : State) : Result :=
  match s.report r with
  | some out => .next (s.complete out.1 out.2)
  | none => .fault .opcodeMismatch

/-- The `SYNC` answer step (`42_read.md` R95, R96): the window is tested before the count. -/
def syncAnswer (ans : Answer) (s : State) : Result :=
  match ans with
  | .timedOut => readEnd .timeoutWaitingForSync s
  | .dur d =>
    let s' := { s with n := s.n + 1#4 }
    if SyncWindow s.cpl.toNat d.toNat then
      .next (({ s' with ph := .dstart }).issue (.wait .low (dataStartTimeout s.cpl)))
    else if s'.n.toNat = Config.syncTries then readEnd .timeoutWaitingForSync s'
    else .next (s'.issue (.measure .low s'.tl))
  | .ok => .fault .requestMismatch

/-- The `DSTART` answer step (`42_read.md` R97). -/
def dstartAnswer (ans : Answer) (s : State) : Result :=
  match ans with
  | .timedOut => readEnd .syncLostAfterPreamble s
  | .ok => .next (({ s with k := 0#4, acc := 0#12, ph := .bits }).issue (.measure .high s.tl))
  | .dur _ => .fault .requestMismatch

/-- The `BITS` answer step (`42_read.md` R98 to R100): `TimedOut` counts as a malformed pulse. -/
def bitsAnswer (ans : Answer) (s : State) : Result :=
  match ans with
  | .timedOut => readEnd .malformedDataPulse s
  | .dur d =>
    match bitOf s.cpl.toNat d.toNat with
    | none => readEnd .malformedDataPulse s
    | some b =>
      let s' := { s with acc := shiftIn s.acc b, k := s.k + 1#4 }
      if s'.k.toNat = Config.nbits then readEnd (.ok s'.acc) s'
      else .next (s'.issue (.measure .high s'.tl))
  | .ok => .fault .requestMismatch

end Sys2Proof.Machine
end

