-- ==== Sys2Proof/Machine/Sequencer.lean ====
section
/-!
DEFINITION. The sequencer: at each rising edge the reset step (`70_reset_and_hazards.md` rule R140), or the accept step
(`30_encoding.md` rule R53), or the answer step of the phase (`10_state.md` rules R10, R16), or nothing (log 5).
-/

namespace Sys2Proof.Machine

/-- The accept step of a command word: the command's own accept step, or `IllegalCmd` (`30_encoding.md` R53, R54). -/
def acceptWord (w : CmdWord) (s : State) : Result :=
  match decode w with
  | .ok i => exec i s
  | .error _ => .next (acceptIllegal w s)

/-- The answer step of the phase, enabled by the request the phase names (`10_state.md` R16, R18). -/
def answerStep (ans : Answer) (s : State) : Result :=
  if s.req = s.phaseRequest then
    match s.ph with
    | .idle => .fault .requestMismatch
    | .sync => syncAnswer ans s
    | .dstart => dstartAnswer ans s
    | .bits => bitsAnswer ans s
    | .cals => calsAnswer ans s
  else .fault .requestMismatch

/-- One step of the core at an edge, the reset set aside: idle, it accepts a presented command and ignores answers
(`10_state.md` R15, `30_encoding.md` R57); busy, it consumes a present answer and ignores commands. -/
def coreStep (e : Edge) (s : State) : Result :=
  if s.ph = .idle then
    if e.cmdValid then acceptWord e.cmd s else .next s
  else
    match s.takeAnswer e with
    | none => .next s
    | some (ans, s') => answerStep ans s'

/-- One rising edge of `clk`: with `rst` = 1 the reset step, whatever else is presented (`70_reset_and_hazards.md` R140). -/
def clockEdge (s : State) : Result :=
  if s.edge.rst then .next s.tick.resetStep else coreStep s.edge s.tick

/-- The host presents a command word at the next edge, to an idle core. -/
def State.presentCommand (s : State) (w : CmdWord) : State :=
  { s with ph := .idle, req := none, inputs := { Edge.quiet with cmdValid := true, cmd := w } :: s.inputs }

end Sys2Proof.Machine
end

