-- ==== Sys2Proof/Machine/Step.lean ====
section
/-!
DEFINITION. The step of the machine, one rising edge of `clk` (`10_state.md` rule R25), and the word the host checks
present to it.
-/

namespace Sys2Proof.Machine

/-- One step: one rising edge of `clk`. -/
def step (s : State) : Host.Outcome State Fault Refusal := clockEdge s

/-- The state in which the host presents the `nbits`-bit command word `w` at the next edge and the core is idle, so that
the next step accepts it (log 4). -/
def State.withFetchWord (s : State) (nbits w : Nat) : State :=
  s.presentCommand (BitVec.ofNat 40 (w % 2 ^ nbits))

end Sys2Proof.Machine
end

