-- ==== Sys2Proof/Machine/Text.lean ====
section
/-!
DEFINITION. The text syntax of commands (`30_encoding.md` rule R58; log 14) and the source's operation names
(`30_encoding.md` rule R59).
-/

namespace Sys2Proof

/-- The value of a digit character in base 10 or 16. -/
def digitValue (base : Nat) (c : Char) : Option Nat :=
  let v :=
    if '0'.toNat ≤ c.toNat ∧ c.toNat ≤ '9'.toNat then c.toNat - '0'.toNat
    else if 'a'.toNat ≤ c.toNat ∧ c.toNat ≤ 'f'.toNat then c.toNat - 'a'.toNat + 10
    else if 'A'.toNat ≤ c.toNat ∧ c.toNat ≤ 'F'.toNat then c.toNat - 'A'.toNat + 10
    else 16
  if v < base then some v else none

/-- The number digits write in a base, most significant first, after a prefix of value `v`. -/
def digitsValue (base : Nat) : Nat → List Char → Option Nat
  | v, [] => some v
  | v, c :: cs =>
    match digitValue base c with
    | some d => digitsValue base (v * base + d) cs
    | none => none

/-- An unsigned decimal or `0x` hexadecimal number (`30_encoding.md` R58). -/
def readNumber : List Char → Option Nat
  | [] => none
  | '0' :: 'x' :: c :: cs => digitsValue 16 0 (c :: cs)
  | c :: cs => digitsValue 10 0 (c :: cs)

/-- A 32-bit operand: a number below 2^32 (`30_encoding.md` R58). -/
def readWord (cs : List Char) : Option Word :=
  match readNumber cs with
  | some v => if v < 2 ^ 32 then some (BitVec.ofNat 32 v) else none
  | none => none

/-- Split at spaces and commas, a comma standing alone; `cur` is the piece being read. -/
def lexWords (cur : List Char) : List Char → List (List Char)
  | [] => if cur = [] then [] else [cur]
  | c :: cs =>
    let done := if cur = [] then [] else [cur]
    if c = ' ' then done ++ lexWords [] cs
    else if c = ',' then done ++ [','] :: lexWords [] cs
    else lexWords (cur ++ [c]) cs

/-- A one-operand command of the syntax table (`30_encoding.md` R58). -/
def oneOperand (name : List Char) (v : Word) : Option Instr :=
  if name = "SETCP".toList then some (.setcp v)
  else if name = "CAL".toList then some (.cal v)
  else if name = "CALAUTO".toList then some (.calauto false v)
  else if name = "CALAUTO.NF".toList then some (.calauto true v)
  else if name = "READ".toList then some (.read v)
  else if name = "READARR".toList then some (.readarr v)
  else none

/-- The command a line of text writes (`30_encoding.md` R58). -/
def assemble (text : String) : Option Instr :=
  match lexWords [] text.toList with
  | [name, x] =>
    match readWord x with
    | some v => oneOperand name v
    | none => none
  | [name, i, [','], x] =>
    if name = "READPIN".toList then
      match readNumber i, readWord x with
      | some idx, some v => if idx < 16 then some (.readpin idx v) else none
      | _, _ => none
    else none
  | _ => none

/-- The source's public operations (`30_encoding.md` R59). A timeout is in microseconds; `construct` has the explicit
period in half-microseconds, so that a multiple of 0.5 microseconds is whole. -/
inductive SourceOp where
  | calibrate (timeoutMicros : Word)
  | calibratePolicy (fallback : Bool) (timeoutMicros : Word)
  | read (timeoutMicros : Word)
  | readPin (index : Nat) (timeoutMicros : Word)
  | readArray (timeoutMicros : Word)
  | construct (halfMicros : Word)
  deriving DecidableEq, Repr

/-- The one command each source operation expands to (`30_encoding.md` R59). -/
def SourceOp.expand : SourceOp → Instr
  | .calibrate t => .cal t
  | .calibratePolicy fallback t => .calauto (!fallback) t
  | .read t => .read t
  | .readPin i t => .readpin i t
  | .readArray t => .readarr t
  | .construct p => .setcp p

end Sys2Proof
end

