-- ==== Sys2Proof/Machine/BigStep.lean ====
section
/-!
DEFINITION. Each command as one function of the answers it consumes (`41_calibrate.md` rules R76, R83, `42_read.md` rule
R102). The timeout `T` only rides on the requests, so these functions leave it out. Each gives its result and the answers
it did not consume; it gives none where the script ends, or holds an answer of the wrong kind, before the command does
(log 13).
-/

namespace Sys2Proof.Machine

/-- `AwaitingSync` with `tries` pulses left: whether the sync pulse was found (`42_read.md` R102). -/
def seekSync (c : Nat) : Nat → List Answer → Option (Bool × List Answer)
  | 0, script => some (false, script)
  | _ + 1, .timedOut :: script => some (false, script)
  | tries + 1, .dur d :: script => if SyncWindow c d.toNat then some (true, script) else seekSync c tries script
  | _ + 1, .ok :: _ => none
  | _ + 1, [] => none

/-- `ReceivingBits` with `left` bits to come (`42_read.md` R102). -/
def receiveBits (c : Nat) : Nat → DataWord → List Answer → Option (ReadResult × List Answer)
  | 0, acc, script => some (.ok acc, script)
  | _ + 1, _, .timedOut :: script => some (.malformedDataPulse, script)
  | left + 1, acc, .dur d :: script =>
    match bitOf c d.toNat with
    | some b => receiveBits c left (shiftIn acc b) script
    | none => some (.malformedDataPulse, script)
  | _ + 1, _, .ok :: _ => none
  | _ + 1, _, [] => none

/-- `AwaitingDataStart`, then the bits (`42_read.md` R102). -/
def awaitData (c : Nat) : List Answer → Option (ReadResult × List Answer)
  | .timedOut :: script => some (.syncLostAfterPreamble, script)
  | .ok :: script => receiveBits c Config.nbits 0#12 script
  | .dur _ :: _ => none
  | [] => none

/-- `decode(c, T, script)`: the outcome of a read with `CPL = c` (`42_read.md` R102). -/
def decodeFrame (c : Nat) (script : List Answer) : Option (ReadResult × List Answer) :=
  match seekSync c Config.syncTries script with
  | some (true, rest) => awaitData c rest
  | some (false, rest) => some (.timeoutWaitingForSync, rest)
  | none => none

/-- The durations of up to `left` low pulses; no list where one times out (`41_calibrate.md` R76). -/
def takeBurst : Nat → List Answer → Option (Option (List Nat) × List Answer)
  | 0, script => some (some [], script)
  | _ + 1, .timedOut :: script => some (none, script)
  | left + 1, .dur d :: script =>
    match takeBurst left script with
    | some (some ds, rest) => some (some (d.toNat :: ds), rest)
    | some (none, rest) => some (none, rest)
    | none => none
  | _ + 1, .ok :: _ => none
  | _ + 1, [] => none

/-- `min(d1..dn)`. -/
def leastOf : List Nat → Nat
  | [] => 0
  | d :: ds => ds.foldl min d

/-- `max(d1..dn)`. -/
def greatestOf : List Nat → Nat
  | [] => 0
  | d :: ds => ds.foldl max d

/-- `calAttempt(T, script)` (`41_calibrate.md` R76). -/
def calAttempt (script : List Answer) : Option (Attempt × List Answer) :=
  match takeBurst Config.calSamples script with
  | some (some ds, rest) => some (classify (leastOf ds) (greatestOf ds), rest)
  | some (none, rest) => some (.tmo, rest)
  | none => none

/-- `CAL`: its status, the period it installs, and the answers left (`41_calibrate.md` R76, R79). -/
def calOnce (script : List Answer) : Option ((Status × Option Nat) × List Answer) :=
  match calAttempt script with
  | some (r, rest) => some (calOutcome r, rest)
  | none => none

/-- The loop of `calAuto` with `left` attempts to come (`41_calibrate.md` R83). -/
def autoLoop (nf : Bool) : Nat → Nat → Nat → List Answer → Option ((Status × Option Nat) × List Answer)
  | 0, kd, sum, script => some (finishOutcome nf kd sum, script)
  | left + 1, kd, sum, script =>
    match calAttempt script with
    | some (.det p, rest) => autoLoop nf left (kd + 1) (sum + p) rest
    | some (.indet, rest) => autoLoop nf left kd sum rest
    | some (.tmo, rest) => some ((.calTimeout, none), rest)
    | none => none

/-- `calAuto(T, nf, script)` (`41_calibrate.md` R83). -/
def calAuto (nf : Bool) (script : List Answer) : Option ((Status × Option Nat) × List Answer) :=
  autoLoop nf Config.calAttempts 0 0 script

/-- The edge at which the Pulse Source presents an answer of a script and the host presents nothing (`30_encoding.md`
R57). -/
def Answer.edge : Answer → Edge
  | .timedOut => { Edge.quiet with ansValid := true, ansTimedout := true }
  | .ok => { Edge.quiet with ansValid := true }
  | .dur d => { Edge.quiet with ansValid := true, ansDur := d }

/-- The edge at which the host presents a command word and the Pulse Source presents nothing. -/
def commandEdge (w : CmdWord) : Edge := { Edge.quiet with cmdValid := true, cmd := w }

end Sys2Proof.Machine
end

