-- ==== Sys2Proof/Machine/Ports.lean ====
section
/-!
DEFINITION. The output ports of the block as functions of its state (`10_state.md` rule R25, `30_encoding.md` rule R57).
A port that a rule leaves unspecified shows a free value, drawn anew at each edge (log 3).
-/

namespace Sys2Proof.Machine

/-- The output ports (`10_state.md` R25). -/
structure Outputs where
  cmdReady : Bool
  busy : Bool
  rspValid : Bool
  rsp : RspWord
  cpValid : Bool
  cp : Word
  psReqValid : Bool
  psReqKind : BitVec 1
  psReqLevel : BitVec 1
  psReqTmo : Word
  deriving DecidableEq, Repr

/-- `LOW` = 0, `HIGH` = 1 (`30_encoding.md` R57). -/
def Level.code : Level → BitVec 1
  | .low => 0#1
  | .high => 1#1

/-- `WAIT` = 0, `MEASURE` = 1 (`30_encoding.md` R57). -/
def Request.kindCode : Request → BitVec 1
  | .wait _ _ => 0#1
  | .measure _ _ => 1#1

/-- The level of a request (`20_memory.md` R31). -/
def Request.level : Request → Level
  | .wait l _ => l
  | .measure l _ => l

/-- The timeout of a request (`20_memory.md` R31). -/
def Request.timeout : Request → Word
  | .wait _ t => t
  | .measure _ t => t

/-- What the output ports show in a state. -/
def State.outputs (s : State) : Outputs where
  cmdReady := !s.busy
  busy := s.busy
  rspValid := s.rspv
  rsp := if s.rspv then s.rsp else Config.unspecifiedRsp s.edges
  cpValid := s.cpv
  cp := if s.cpv then s.cp else Config.unspecifiedCp s.edges
  psReqValid := s.req.isSome
  psReqKind :=
    match s.req with
    | some r => r.kindCode
    | none => Config.unspecifiedReqKind s.edges
  psReqLevel :=
    match s.req with
    | some r => r.level.code
    | none => Config.unspecifiedReqLevel s.edges
  psReqTmo :=
    match s.req with
    | some r => r.timeout
    | none => Config.unspecifiedReqTmo s.edges

end Sys2Proof.Machine
end

