-- ==== Sys2Proof/Safety.lean ====
section
/-!
DEFINITION. The terms claims are stated in: the invariant of the reachable states, the end of a run
(`70_reset_and_hazards.md` rule R151), the bound on the answers a command still consumes (R149), which registers are live,
and agreement of two states on them (`10_state.md` rules R17, R24).
-/

namespace Sys2Proof.Machine

/-- A read command is running. -/
abbrev ReadPhase (p : Phase) : Prop := p = .sync ∨ p = .dstart ∨ p = .bits

/-- The statuses that report a success (`30_encoding.md` R55, `60_exceptions.md` R130). -/
abbrev IsSuccess (st : Status) : Prop := st = .ok ∨ st = .calDegraded

/-- The ranges of the working registers (`10_state.md` R17), and that the accumulator holds no more bits than were received
and the least duration does not exceed the greatest. -/
structure State.Ranges (s : State) : Prop where
  n : s.n.toNat ≤ 13
  k : s.k.toNat ≤ 12
  a : s.a.toNat ≤ 5
  kd : s.kd.toNat ≤ s.a.toNat
  sum : s.kd.toNat ≤ s.sum.toNat ∧ s.sum.toNat ≤ s.kd.toNat * 265121437
  acc : s.acc.toNat < 2 ^ s.k.toNat
  samples : s.minr.toNat ≤ s.maxr.toNat

/-- The states a run can reach satisfy this. -/
structure State.Inv (s : State) : Prop where
  /-- The period is legal whenever it is valid (`10_state.md` R11). -/
  period : s.cpv = true → LegalPeriod s.cp.toNat
  /-- `REQ` is the request of the phase, none when idle (`10_state.md` R18). -/
  request : s.req = s.phaseRequest
  /-- A response is valid only while idle (`10_state.md` R14). -/
  responseIdle : s.rspv = true → s.ph = .idle
  /-- A valid response carries a status of the table, and payload 0 on every failure (`30_encoding.md` R55, R56). -/
  response : s.rspv = true → ∃ st : Status, rspStatus s.rsp = st.code ∧ (¬ IsSuccess st → rspPayload s.rsp = 0#32)
  /-- The running command is one whose rules reach the phase (`10_state.md` R16). -/
  readOpcode : ReadPhase s.ph → IsReadOpcode s.opl
  calOpcode : s.ph = .cals → IsCalOpcode s.opl
  /-- A running `READPIN` has a pin index 0 to 11 (`43_accessors.md` R110). -/
  pinIndex : ReadPhase s.ph → s.opl = opcodeReadpin → s.auxl.toNat ≤ 11
  /-- During a read the period is valid and equal to the read's copy (`70_reset_and_hazards.md` R145). -/
  readPeriod : ReadPhase s.ph → s.cpv = true ∧ s.cpl = s.cp
  /-- Every working register is in its range. -/
  ranges : s.Ranges
  /-- While a count is running it is below its end (`42_read.md` R95, R98, `41_calibrate.md` R78, R81). -/
  nRunning : s.ph = .sync ∨ s.ph = .cals → s.n.toNat < 13
  kRunning : s.ph = .bits → s.k.toNat < 12
  aRunning : s.ph = .cals → s.opl = opcodeCalauto → s.a.toNat < 5

/-- The run has ended: the last command has completed (`70_reset_and_hazards.md` R151). -/
abbrev State.runEnded (s : State) : Prop := s.ph = .idle ∧ s.req = none ∧ s.rspv = true

/-- The answer ports of the edge carry `ans`, and it asserts no reset; what the command port carries is left open, and
`ps_ans_dur` counts for a duration only (`30_encoding.md` R57). -/
structure Edge.Carries (e : Edge) (ans : Answer) : Prop where
  rst : e.rst = false
  valid : e.ansValid = true
  timedOut : e.ansTimedout = true ↔ ans = .timedOut
  dur : ∀ d, ans = .dur d → e.ansDur = d

/-- The edge presents the command word `w` and asserts no reset; what the answer ports carry is left open
(`30_encoding.md` R53). -/
structure Edge.Presents (e : Edge) (w : CmdWord) : Prop where
  rst : e.rst = false
  valid : e.cmdValid = true
  cmd : e.cmd = w

/-- The coming edge asserts no reset and the answer `ans` is present; `t` is the state with the edge and the answer taken.
The answer comes from the ports, or, where the reference source is attached, from it, and then its position moves to the
return position (`30_encoding.md` R57, `20_memory.md` R43). -/
def State.Answered (s : State) (ans : Answer) (t : State) : Prop :=
  (s.ref = none ∧ s.edge.Carries ans ∧ t = s.tick) ∨
  (∃ p r, s.ref = some p ∧ s.req = some r ∧ s.edge.rst = false ∧ ans = (p.answer r).1 ∧
    t = { s.tick with ref := some (p.moveTo (p.answer r).2) })

/-- A word that is no command: `op` is 0x0 or 0x7 to 0xF, or `aux` is not legal for its `op` (`30_encoding.md` R54). -/
abbrev IllegalWord (w : CmdWord) : Prop :=
  opField w = 0x0#4 ∨ 0x7 ≤ (opField w).toNat ∨
  ((opField w = 0x1#4 ∨ opField w = 0x2#4 ∨ opField w = 0x4#4 ∨ opField w = 0x6#4) ∧ auxField w ≠ 0#4) ∨
  (opField w = 0x3#4 ∧ (auxField w).extractLsb' 1 3 ≠ 0#3)

/-- The machine over `k` rising edges, stopping at a fault or a refusal. -/
def runEdges : Nat → State → Result
  | 0, s => .next s
  | k + 1, s =>
    match step s with
    | .next t => runEdges k t
    | .fault r => .fault r
    | .refused r => .refused r

/-- The most answers the running command can still consume (`70_reset_and_hazards.md` R149). -/
def State.answersLeft (s : State) : Nat :=
  match s.ph with
  | .idle => 0
  | .sync => (13 - s.n.toNat) + 13
  | .dstart => 13
  | .bits => 12 - s.k.toNat
  | .cals => if s.opl = opcodeCalauto then (4 - s.a.toNat) * 13 + (13 - s.n.toNat) else 13 - s.n.toNat

/-- Two states agree on everything a rule can read and a host can see: a register that holds no value, or whose value is
dead, may differ (`10_state.md` R17, R24). -/
structure State.Agree (s t : State) : Prop where
  ph : s.ph = t.ph
  req : s.req = t.req
  cpv : s.cpv = t.cpv
  cp : s.cpv = true → s.cp = t.cp
  rspv : s.rspv = t.rspv
  rsp : s.rspv = true → s.rsp = t.rsp
  inputs : s.inputs = t.inputs
  edges : s.edges = t.edges
  ref : s.ref = t.ref
  opl : s.ph ≠ .idle → s.opl = t.opl
  auxl : s.ph ≠ .idle → s.auxl = t.auxl
  tl : s.ph ≠ .idle → s.tl = t.tl
  cpl : ReadPhase s.ph → s.cpl = t.cpl
  n : s.ph = .sync ∨ s.ph = .cals → s.n = t.n
  k : s.ph = .bits → s.k = t.k
  acc : s.ph = .bits → s.acc = t.acc
  minr : s.ph = .cals → s.n ≠ 0#4 → s.minr = t.minr
  maxr : s.ph = .cals → s.n ≠ 0#4 → s.maxr = t.maxr
  a : s.ph = .cals → s.opl = opcodeCalauto → s.a = t.a
  kd : s.ph = .cals → s.opl = opcodeCalauto → s.kd = t.kd
  sum : s.ph = .cals → s.opl = opcodeCalauto → s.sum = t.sum

end Sys2Proof.Machine

namespace Sys2Proof

open Machine

/-- What a read command reports for a decode; none for the other commands (`42_read.md` R101, `43_accessors.md` R110,
R112 to R114). -/
def Instr.report : Instr → ReadResult → Option (Status × Word)
  | .read _, r => some (readReport r)
  | .readpin idx _, r => some (readpinReport idx r)
  | .readarr _, r => some (readarrReport r)
  | .setcp _, _ => none
  | .cal _, _ => none
  | .calauto _ _, _ => none

/-- The most answers a command consumes (`70_reset_and_hazards.md` R149). -/
def Instr.answerBound : Instr → Nat
  | .setcp _ => 0
  | .cal _ => 13
  | .calauto _ _ => 65
  | .read _ => 26
  | .readpin _ _ => 26
  | .readarr _ => 26

end Sys2Proof
end

