-- ==== Sys2Proof/Certificates/Slice0/Obligations.lean ====
section
/-!
DEFINITION. The statements about the model, for the provers. An accept step is stated in an idle core, where the rule
enables it (`30_encoding.md` R53); an answer step in a state whose coming edge carries the answer.
-/

open Sys2Proof Sys2Proof.Machine

/-! ## The accept steps -/

/-- `40_config.md` R70, R71: a legal argument becomes the period, any other is answered `BadArg`; nothing else changes but
the latches and the response. -/
def Obligations.SetcpInstallsLegalPeriodElseBadArg : Prop :=
  ∀ (s : State) (p : Word), s.ph = .idle →
    encode (.setcp p) = 0x1#4 ++ 0x0#4 ++ p ∧
    (1 ≤ p.toNat ∧ p.toNat ≤ 858993459 →
      exec (.setcp p) s = .next { s with
        opl := 0x1#4, auxl := 0x0#4, tl := p, cp := p, cpv := true, rspv := true, rsp := 0x00#8 ++ p, ph := .idle, req := none }) ∧
    (p.toNat = 0 ∨ 858993459 < p.toNat →
      exec (.setcp p) s = .next { s with
        opl := 0x1#4, auxl := 0x0#4, tl := p, rspv := true, rsp := 0x0B#8 ++ 0#32, ph := .idle, req := none })

/-- `41_calibrate.md` R77: `CAL T` needs no valid period; it begins one burst and requests the first low pulse. -/
def Obligations.CalAcceptStartsOneBurst : Prop :=
  ∀ (s : State) (t : Word), s.ph = .idle →
    encode (.cal t) = 0x2#4 ++ 0x0#4 ++ t ∧
    exec (.cal t) s = .next { s with
      rspv := false, opl := 0x2#4, auxl := 0x0#4, tl := t, n := 0#4, ph := .cals, req := some (.measure .low t) }

/-- `41_calibrate.md` R80: `CALAUTO T` and `CALAUTO.NF T` clear the attempt counts and begin the first attempt. -/
def Obligations.CalautoAcceptStartsFirstAttempt : Prop :=
  ∀ (s : State) (nf : Bool) (t : Word), s.ph = .idle →
    encode (.calauto nf t) = 0x3#4 ++ (if nf then 0x1#4 else 0x0#4) ++ t ∧
    exec (.calauto nf t) s = .next { s with
      rspv := false, opl := 0x3#4, auxl := if nf then 0x1#4 else 0x0#4, tl := t,
      a := 0#3, kd := 0#3, sum := 0#35, n := 0#4, ph := .cals, req := some (.measure .low t) }

/-- `42_read.md` R94: with a valid period `READ T` copies it and seeks sync; without one it is answered `NotConfigured`
and issues no request. -/
def Obligations.ReadAcceptSeeksSyncIfConfigured : Prop :=
  ∀ (s : State) (t : Word), s.ph = .idle →
    encode (.read t) = 0x4#4 ++ 0x0#4 ++ t ∧
    (s.cpv = true → exec (.read t) s = .next { s with
      rspv := false, opl := 0x4#4, auxl := 0x0#4, tl := t, cpl := s.cp, n := 0#4, ph := .sync, req := some (.measure .low t) }) ∧
    (s.cpv = false → exec (.read t) s = .next { s with
      opl := 0x4#4, auxl := 0x0#4, tl := t, rspv := true, rsp := 0x0A#8 ++ 0#32, ph := .idle, req := none })

/-- `43_accessors.md` R110: with an index 0 to 11, `READPIN i, T` begins exactly as `READ`. -/
def Obligations.ReadpinAcceptSeeksSyncIfConfigured : Prop :=
  ∀ (s : State) (idx : Nat) (t : Word), s.ph = .idle → idx ≤ 11 →
    encode (.readpin idx t) = 0x5#4 ++ BitVec.ofNat 4 idx ++ t ∧
    (s.cpv = true → exec (.readpin idx t) s = .next { s with
      rspv := false, opl := 0x5#4, auxl := BitVec.ofNat 4 idx, tl := t, cpl := s.cp, n := 0#4, ph := .sync,
      req := some (.measure .low t) }) ∧
    (s.cpv = false → exec (.readpin idx t) s = .next { s with
      opl := 0x5#4, auxl := BitVec.ofNat 4 idx, tl := t, rspv := true, rsp := 0x0A#8 ++ 0#32, ph := .idle, req := none })

/-- `43_accessors.md` R111: an index 12 to 15 is answered `OutOfRange` in the accept step, whether or not a period is
valid, and no request is issued. -/
def Obligations.ReadpinBeyondElevenIsOutOfRange : Prop :=
  ∀ (s : State) (idx : Nat) (t : Word), s.ph = .idle → 12 ≤ idx → idx ≤ 15 →
    exec (.readpin idx t) s = .next { s with
      opl := 0x5#4, auxl := BitVec.ofNat 4 idx, tl := t, rspv := true, rsp := 0x07#8 ++ 0#32, ph := .idle, req := none }

/-- `43_accessors.md` R113, its accept step: `READARR T` begins exactly as `READ`. -/
def Obligations.ReadarrAcceptSeeksSyncIfConfigured : Prop :=
  ∀ (s : State) (t : Word), s.ph = .idle →
    encode (.readarr t) = 0x6#4 ++ 0x0#4 ++ t ∧
    (s.cpv = true → exec (.readarr t) s = .next { s with
      rspv := false, opl := 0x6#4, auxl := 0x0#4, tl := t, cpl := s.cp, n := 0#4, ph := .sync, req := some (.measure .low t) }) ∧
    (s.cpv = false → exec (.readarr t) s = .next { s with
      opl := 0x6#4, auxl := 0x0#4, tl := t, rspv := true, rsp := 0x0A#8 ++ 0#32, ph := .idle, req := none })

/-- `60_exceptions.md` R124: the order of the tests of the accept step. -/
def Obligations.AcceptPriority : Prop :=
  ∀ (s : State) (w : CmdWord), s.ph = .idle →
    (IllegalWord w → ∃ t, acceptWord w s = .next t ∧ t.ph = .idle ∧ t.rspv = true ∧ t.rsp = 0x0C#8 ++ 0#32) ∧
    (opField w = 0x5#4 → 11 < (auxField w).toNat →
      ∃ t, acceptWord w s = .next t ∧ t.ph = .idle ∧ t.rspv = true ∧ t.rsp = 0x07#8 ++ 0#32) ∧
    (¬ IllegalWord w → (opField w = 0x4#4 ∨ opField w = 0x6#4 ∨ (opField w = 0x5#4 ∧ (auxField w).toNat ≤ 11)) →
      s.cpv = false → ∃ t, acceptWord w s = .next t ∧ t.ph = .idle ∧ t.rspv = true ∧ t.rsp = 0x0A#8 ++ 0#32) ∧
    (¬ IllegalWord w → opField w = 0x1#4 → ((argField w).toNat = 0 ∨ 858993459 < (argField w).toNat) →
      ∃ t, acceptWord w s = .next t ∧ t.ph = .idle ∧ t.rspv = true ∧ t.rsp = 0x0B#8 ++ 0#32)

/-- `30_encoding.md` R54: an illegal word presented to an idle core is accepted and answered `IllegalCmd`; nothing changes
but the response, the latches and what the edge itself takes. `arg` never makes a word illegal; the all-zero word is. -/
def Obligations.IllegalWordOnlyReportsIllegalCmd : Prop :=
  (∀ s : State, s.ph = .idle → s.edge.rst = false → s.edge.cmdValid = true → IllegalWord s.edge.cmd →
    step s = .next { s.tick with
      opl := opField s.edge.cmd, auxl := auxField s.edge.cmd, tl := argField s.edge.cmd,
      rspv := true, rsp := 0x0C#8 ++ 0#32, ph := .idle, req := none }) ∧
  (∀ (op aux : Nibble) (arg arg' : Word), IllegalWord (op ++ aux ++ arg) → IllegalWord (op ++ aux ++ arg')) ∧
  IllegalWord 0#40

/-- What an accept step leaves unchanged, for every command (`30_encoding.md` R53, `10_state.md` R13). -/
def Obligations.AcceptStepFrame : Prop :=
  ∀ (i : Instr) (s t : State), s.ph = .idle → exec i s = .next t →
    t.opl = i.opcode ∧ t.auxl = i.aux ∧ t.tl = i.arg ∧
    t.inputs = s.inputs ∧ t.edges = s.edges ∧ t.ref = s.ref ∧
    t.k = s.k ∧ t.acc = s.acc ∧ t.minr = s.minr ∧ t.maxr = s.maxr ∧
    (i.opcode ≠ 0x1#4 → t.cp = s.cp ∧ t.cpv = s.cpv) ∧
    (¬ IsReadOpcode i.opcode → t.cpl = s.cpl) ∧
    (i.opcode = 0x1#4 → t.n = s.n) ∧
    (i.opcode ≠ 0x3#4 → t.a = s.a ∧ t.kd = s.kd ∧ t.sum = s.sum) ∧
    (t.ph ≠ .idle → t.rsp = s.rsp ∧ t.rspv = false)

/-! ## The edge: reset, handshake, decoded command -/

/-- A presented word that decodes to a command is run by the step as that command's accept step, on the state with the edge
taken (`30_encoding.md` R53, `10_state.md` R15). -/
def Obligations.StepRunsTheDecodedCommand : Prop :=
  ∀ (s : State) (i : Instr), s.ph = .idle → s.edge.rst = false → s.edge.cmdValid = true → decode s.edge.cmd = .ok i →
    step s = exec i s.tick

/-- `10_state.md` section 2: `busy` and `cmd_ready` follow `PH`; an idle core accepts a presented command; what a busy core
is presented on the command port changes nothing. That an idle core presented no command keeps every register is deduced
(log 5). -/
def Obligations.CommandAcceptedOnlyWhenIdle : Prop :=
  ∀ s : State,
    (s.outputs.busy = true ↔ s.ph ≠ .idle) ∧ (s.outputs.cmdReady = true ↔ s.ph = .idle) ∧
    (s.ph = .idle → s.edge.rst = false → s.edge.cmdValid = true → step s = acceptWord s.edge.cmd s.tick) ∧
    (s.ph = .idle → s.edge.rst = false → s.edge.cmdValid = false → step s = .next s.tick) ∧
    (s.ph ≠ .idle → ∀ (e : Edge) (rest : List Edge) (v : Bool) (w : CmdWord), s.inputs = e :: rest →
      step { s with inputs := { e with cmdValid := v, cmd := w } :: rest } = step s)

/-- While the core is idle the answer ports have no part in a step: whatever they carry, the step is the same
(`30_encoding.md` R57). -/
def Obligations.IdleCoreIgnoresAnswers : Prop :=
  ∀ (s : State) (e : Edge) (rest : List Edge) (v tmo : Bool) (d : Word), s.ph = .idle → s.inputs = e :: rest →
    step { s with inputs := { e with ansValid := v, ansTimedout := tmo, ansDur := d } :: rest } = step s

/-- `70_reset_and_hazards.md` R140: `rst` = 1 gives the reset step whatever else is presented, and a presented command is
not accepted. Of two states reset at the same edge nothing that tells them apart remains visible: every register that R140
leaves without value is dead. -/
def Obligations.ResetEdgeForgetsEverything : Prop :=
  (∀ s : State, s.edge.rst = true →
    ∃ t, step s = .next t ∧ t.ph = .idle ∧ t.req = none ∧ t.cpv = false ∧ t.rspv = false ∧
      t.outputs.cmdReady = true ∧ t.inputs = s.inputs.tail) ∧
  (∀ s u t v : State, s.edge.rst = true → u.edge.rst = true →
    s.inputs.tail = u.inputs.tail → s.edges = u.edges → s.passTime s.edge = u.passTime u.edge →
    step s = .next t → step u = .next v → t.Agree v)

/-- `10_state.md` R24: the state after reset, as far as the rule gives values, and the ports it names. -/
def Obligations.ResetStateIsIdleAndUnconfigured : Prop :=
  State.reset.ph = .idle ∧ State.reset.req = none ∧ State.reset.cpv = false ∧ State.reset.rspv = false ∧
  State.reset.outputs.busy = false ∧ State.reset.outputs.cmdReady = true ∧ State.reset.outputs.psReqValid = false

/-! ## The answer steps

`State.Answered` says how the answer is read: from the ports as R57 encodes it, or from the attached reference source, whose
answer is present at the next edge (log 9). -/

/-- `42_read.md` R95: the `SYNC` answer step. -/
def Obligations.SyncAnswerStep : Prop :=
  ∀ (s t : State) (ans : Answer), s.ph = .sync → s.req = some (.measure .low s.tl) → s.Answered ans t →
    (ans = .timedOut → step s = readEnd .timeoutWaitingForSync t) ∧
    (∀ d : Word, ans = .dur d →
      (SyncWindow s.cpl.toNat d.toNat →
        step s = .next { t with n := s.n + 1#4, ph := .dstart, req := some (.wait .low (dataStartTimeout s.cpl)) }) ∧
      (¬ SyncWindow s.cpl.toNat d.toNat → s.n.toNat + 1 = 13 →
        step s = readEnd .timeoutWaitingForSync { t with n := s.n + 1#4 }) ∧
      (¬ SyncWindow s.cpl.toNat d.toNat → s.n.toNat + 1 < 13 →
        step s = .next { t with n := s.n + 1#4, req := some (.measure .low s.tl) }))

/-- `42_read.md` R97: the `DSTART` answer step. -/
def Obligations.DataStartAnswerStep : Prop :=
  ∀ (s t : State) (ans : Answer), s.ph = .dstart → s.req = some (.wait .low (dataStartTimeout s.cpl)) → s.Answered ans t →
    (ans = .timedOut → step s = readEnd .syncLostAfterPreamble t) ∧
    (ans = .ok → step s = .next { t with k := 0#4, acc := 0#12, ph := .bits, req := some (.measure .high s.tl) })

/-- `42_read.md` R98: the `BITS` answer step. -/
def Obligations.BitsAnswerStep : Prop :=
  ∀ (s t : State) (ans : Answer), s.ph = .bits → s.req = some (.measure .high s.tl) → s.Answered ans t →
    (ans = .timedOut → step s = readEnd .malformedDataPulse t) ∧
    (∀ d : Word, ans = .dur d →
      (¬ OneWindow s.cpl.toNat d.toNat → ¬ ZeroWindow s.cpl.toNat d.toNat → step s = readEnd .malformedDataPulse t) ∧
      (∀ b : BitVec 12,
        (OneWindow s.cpl.toNat d.toNat ∧ b = 1#12) ∨
          (¬ OneWindow s.cpl.toNat d.toNat ∧ ZeroWindow s.cpl.toNat d.toNat ∧ b = 0#12) →
        (s.k.toNat + 1 = 12 → step s = readEnd (.ok ((s.acc <<< 1) ||| b)) { t with acc := (s.acc <<< 1) ||| b, k := s.k + 1#4 }) ∧
        (s.k.toNat + 1 < 12 → step s = .next { t with
          acc := (s.acc <<< 1) ||| b, k := s.k + 1#4, req := some (.measure .high s.tl) })))

/-- `41_calibrate.md` R78: the `CALS` answer step. -/
def Obligations.CalibrationAnswerStep : Prop :=
  ∀ (s t : State) (ans : Answer), s.ph = .cals → s.req = some (.measure .low s.tl) → s.Answered ans t →
    (ans = .timedOut → step s = attemptEnd .tmo t) ∧
    (∀ d mn mx : Word, ans = .dur d →
      mn.toNat = (if s.n = 0#4 then d.toNat else min s.minr.toNat d.toNat) →
      mx.toNat = (if s.n = 0#4 then d.toNat else max s.maxr.toNat d.toNat) →
      (s.n.toNat + 1 < 13 →
        step s = .next { t with minr := mn, maxr := mx, n := s.n + 1#4, req := some (.measure .low s.tl) }) ∧
      (s.n.toNat + 1 = 13 →
        step s = attemptEnd (classify mn.toNat mx.toNat) { t with minr := mn, maxr := mx, n := s.n + 1#4 }))

/-- `41_calibrate.md` R79: the end of the attempt of `CAL`. -/
def Obligations.CalAttemptEnd : Prop :=
  ∀ s : State, s.opl = 0x2#4 →
    (∀ p : Nat, attemptEnd (.det p) s = .next { s with
      cp := BitVec.ofNat 32 p, cpv := true, rsp := 0x00#8 ++ BitVec.ofNat 32 p, rspv := true, ph := .idle, req := none }) ∧
    attemptEnd .indet s = .next { s with rsp := 0x04#8 ++ 0#32, rspv := true, ph := .idle, req := none } ∧
    attemptEnd .tmo s = .next { s with rsp := 0x05#8 ++ 0#32, rspv := true, ph := .idle, req := none }

/-- `41_calibrate.md` R81, R82: the end of an attempt of `CALAUTO`. -/
def Obligations.CalautoAttemptEnd : Prop :=
  ∀ s : State, s.opl = 0x3#4 →
    attemptEnd .tmo s = .next { s with rsp := 0x05#8 ++ 0#32, rspv := true, ph := .idle, req := none } ∧
    (s.a.toNat + 1 < 5 →
      (∀ p : Nat, attemptEnd (.det p) s = .next { s with
        a := s.a + 1#3, kd := s.kd + 1#3, sum := s.sum + BitVec.ofNat 35 p, n := 0#4, ph := .cals,
        req := some (.measure .low s.tl) }) ∧
      attemptEnd .indet s = .next { s with a := s.a + 1#3, n := 0#4, ph := .cals, req := some (.measure .low s.tl) }) ∧
    (s.a.toNat + 1 = 5 →
      (∀ p : Nat, s.kd.toNat < 5 → s.sum.toNat + p < 2 ^ 35 →
        attemptEnd (.det p) s = .next
          (({ s with a := s.a + 1#3, kd := s.kd + 1#3, sum := s.sum + BitVec.ofNat 35 p } : State).endCalibration
            (finishOutcome (s.auxl.getLsbD 0) (s.kd.toNat + 1) (s.sum.toNat + p)).1
            (finishOutcome (s.auxl.getLsbD 0) (s.kd.toNat + 1) (s.sum.toNat + p)).2)) ∧
      attemptEnd .indet s = .next
        (({ s with a := s.a + 1#3 } : State).endCalibration
          (finishOutcome (s.auxl.getLsbD 0) s.kd.toNat s.sum.toNat).1
          (finishOutcome (s.auxl.getLsbD 0) s.kd.toNat s.sum.toNat).2))

/-- `41_calibrate.md` R84: `finish` installs and reports the floored average; with no determination it installs and reports
the default period, or, with `nf`, nothing. That the average is at least 1 is the spec's own inference (section 5). -/
def Obligations.FinishAveragesOrFallsBack : Prop :=
  ∀ (s : State) (nf : Bool) (kd sum : Nat),
    (0 < kd → s.endCalibration (finishOutcome nf kd sum).1 (finishOutcome nf kd sum).2 = { s with
      cp := BitVec.ofNat 32 (sum / kd), cpv := true, rsp := 0x00#8 ++ BitVec.ofNat 32 (sum / kd), rspv := true,
      ph := .idle, req := none }) ∧
    (0 < kd → kd ≤ sum → 1 ≤ sum / kd) ∧
    (kd = 0 → nf = false → s.endCalibration (finishOutcome nf kd sum).1 (finishOutcome nf kd sum).2 = { s with
      cp := BitVec.ofNat 32 Config.defaultCp2, cpv := true, rsp := 0x06#8 ++ BitVec.ofNat 32 Config.defaultCp2, rspv := true,
      ph := .idle, req := none }) ∧
    (kd = 0 → nf = true → s.endCalibration (finishOutcome nf kd sum).1 (finishOutcome nf kd sum).2 = { s with
      rsp := 0x04#8 ++ 0#32, rspv := true, ph := .idle, req := none })

/-- `42_read.md` R101: what `READ` reports. -/
def Obligations.ReadReportsWordOrFailure : Prop :=
  ∀ s : State, s.opl = 0x4#4 →
    (∀ w : DataWord, readEnd (.ok w) s = .next { s with
      rsp := 0x00#8 ++ (0#20 ++ w), rspv := true, ph := .idle, req := none }) ∧
    readEnd .timeoutWaitingForSync s = .next { s with rsp := 0x01#8 ++ 0#32, rspv := true, ph := .idle, req := none } ∧
    readEnd .syncLostAfterPreamble s = .next { s with rsp := 0x02#8 ++ 0#32, rspv := true, ph := .idle, req := none } ∧
    readEnd .malformedDataPulse s = .next { s with rsp := 0x03#8 ++ 0#32, rspv := true, ph := .idle, req := none }

/-- `43_accessors.md` R110, R112: what `READPIN` reports: the pin's bit, or `ReadError` for each of the three failures. -/
def Obligations.ReadpinReportsBitOrReadError : Prop :=
  ∀ s : State, s.opl = 0x5#4 →
    (∀ w : DataWord, readEnd (.ok w) s = .next { s with
      rsp := 0x00#8 ++ (if w.getLsbD s.auxl.toNat then 1#32 else 0#32), rspv := true, ph := .idle, req := none }) ∧
    (∀ r : ReadResult, (∀ w, r ≠ .ok w) → readEnd r s = .next { s with
      rsp := 0x08#8 ++ 0#32, rspv := true, ph := .idle, req := none })

/-- `43_accessors.md` R113, R114: what `READARR` reports: the twelve bits, first received on payload bit 0, or `NoData` for
each of the three failures. -/
def Obligations.ReadarrReportsArrayOrNoData : Prop :=
  ∀ s : State, s.opl = 0x6#4 →
    (∀ w : DataWord, ∃ payload : Word,
      (∀ j, payload.getLsbD j = (decide (j < 12) && w.getLsbD (11 - j))) ∧
      readEnd (.ok w) s = .next { s with rsp := 0x00#8 ++ payload, rspv := true, ph := .idle, req := none }) ∧
    (∀ r : ReadResult, (∀ w, r ≠ .ok w) → readEnd r s = .next { s with
      rsp := 0x09#8 ++ 0#32, rspv := true, ph := .idle, req := none })

/-- `60_exceptions.md` R127: a completion writes the response, sets `RSPV`, returns to idle and clears the request slot, and
writes nothing else; the block is then ready, and shows the response until it accepts another command or is reset. -/
def Obligations.CompleteWritesOnlyTheResponse : Prop :=
  ∀ (s : State) (st : Status) (p : Word),
    s.complete st p = { s with rsp := st.code ++ p, rspv := true, ph := .idle, req := none } ∧
    (s.complete st p).outputs.busy = false ∧ (s.complete st p).outputs.cmdReady = true ∧
    (s.complete st p).outputs.rsp = st.code ++ p ∧
    (s.edge.rst = false → s.edge.cmdValid = false → ∃ t, step (s.complete st p) = .next t ∧
      t.outputs.rspValid = true ∧ t.outputs.rsp = st.code ++ p) ∧
    (∀ (i : Instr) (t : State), exec i (s.complete st p) = .next t → t.ph ≠ .idle → t.outputs.rspValid = false)

/-! ## Numbers: windows, ratios, bits -/

/-- `30_encoding.md` R55: the status codes, one for each outcome, and the two fields of the response word. -/
def Obligations.StatusCodesAndResponseFields : Prop :=
  (∀ (st : Status) (p : Word), rspStatus (st.code ++ p) = st.code ∧ rspPayload (st.code ++ p) = p) ∧
  (∀ st st' : Status, st.code = st'.code → st = st') ∧
  (∀ st : Status, st.code.toNat ≤ 0x0C) ∧
  Status.code .ok = 0x00#8 ∧ Status.code .timeoutWaitingForSync = 0x01#8 ∧ Status.code .syncLostAfterPreamble = 0x02#8 ∧
  Status.code .malformedDataPulse = 0x03#8 ∧ Status.code .calIndeterminate = 0x04#8 ∧ Status.code .calTimeout = 0x05#8 ∧
  Status.code .calDegraded = 0x06#8 ∧ Status.code .outOfRange = 0x07#8 ∧ Status.code .readError = 0x08#8 ∧
  Status.code .noData = 0x09#8 ∧ Status.code .notConfigured = 0x0A#8 ∧ Status.code .badArg = 0x0B#8 ∧
  Status.code .illegalCmd = 0x0C#8

/-- `42_read.md` R91, R92, R93: with `lower = 0.8 * cp` and `upper = 1.2 * cp`, the integer tests are the closed intervals
`[lower, upper]`, `[2*lower, 2*upper]` and `[36*lower, 36*upper]`, exactly. -/
def Obligations.WindowsAreTheExactIntervals : Prop :=
  ∀ (c d : Nat) (cp lower upper : ℚ), cp = c / 2 → lower = (8 / 10) * cp → upper = (12 / 10) * cp →
    ((lower ≤ d ∧ d ≤ upper) ↔ (2 * c ≤ 5 * d ∧ 5 * d ≤ 3 * c)) ∧
    (OneWindow c d ↔ (lower ≤ d ∧ d ≤ upper)) ∧
    (ZeroWindow c d ↔ (2 * lower ≤ d ∧ d ≤ 2 * upper)) ∧
    (SyncWindow c d ↔ (36 * lower ≤ d ∧ d ≤ 36 * upper))

/-- No duration is both bits, and every duration outside the two bit windows, the dead zone between them included, is no
bit (`42_read.md` section 4). -/
def Obligations.DeadZoneIsNoBit : Prop :=
  ∀ c d : Nat, 1 ≤ c →
    ¬ (OneWindow c d ∧ ZeroWindow c d) ∧ (SyncWindow c d → ¬ OneWindow c d ∧ ¬ ZeroWindow c d) ∧
    (3 * c < 5 * d → 5 * d < 4 * c → bitOf c d = none) ∧
    (5 * d < 2 * c → bitOf c d = none) ∧ (6 * c < 5 * d → bitOf c d = none) ∧
    (bitOf c d = some true ↔ OneWindow c d) ∧ (bitOf c d = some false ↔ ZeroWindow c d)

/-- `41_calibrate.md` R75: a burst determines `min` at a ratio within 10% of 36, `min / 2` within 10% of 18, both ends
included, and nothing otherwise or at `min` = 0; every determined period is 1 to 265121437 half-microseconds. -/
def Obligations.ClassifyIsTheRatioTest : Prop :=
  ∀ mn mx : Nat, mn ≤ mx →
    (mn = 0 → classify mn mx = .indet) ∧
    (∀ ratio : ℚ, 0 < mn → ratio = mx / mn →
      ((324 / 10 : ℚ) ≤ ratio → ratio ≤ 396 / 10 → classify mn mx = .det (2 * mn)) ∧
      ((162 / 10 : ℚ) ≤ ratio → ratio ≤ 198 / 10 → classify mn mx = .det mn) ∧
      (¬ ((324 / 10 : ℚ) ≤ ratio ∧ ratio ≤ 396 / 10) → ¬ ((162 / 10 : ℚ) ≤ ratio ∧ ratio ≤ 198 / 10) →
        classify mn mx = .indet)) ∧
    (∀ p, mx < 2 ^ 32 → classify mn mx = .det p → 1 ≤ p ∧ p ≤ 265121437)

/-- `42_read.md` R99: the accumulator holds the bits received, the first the most significant, and loses none in twelve
shifts. -/
def Obligations.AccumulatorIsMostSignificantFirst : Prop :=
  ∀ bs : List Bool, bs.length ≤ 12 →
    (bs.foldl shiftIn 0#12).toNat = bs.foldl (fun v b => 2 * v + (if b then 1 else 0)) 0 ∧
    (∀ i (h : i < bs.length), (bs.foldl shiftIn 0#12).getLsbD (bs.length - 1 - i) = bs[i])

/-- `10_state.md` R22: pin `i` is `word[i]`, array element `j` is `word[11 - j]`, so pin `i` is element `11 - i`. -/
def Obligations.PinAndArrayIndicesRunOpposite : Prop :=
  ∀ w : DataWord, (arrayOf w).length = 12 ∧
    (∀ i, i ≤ 11 → pinBit w i = w.getLsbD i) ∧
    (∀ j, j ≤ 11 → (arrayOf w)[j]? = some (w.getLsbD (11 - j))) ∧
    (∀ i, i ≤ 11 → (arrayOf w)[11 - i]? = some (pinBit w i))

/-! ## Each command as a function of the answers -/

/-- The three read commands report one decode alike: `READARR` bit `j` is `READPIN 11 - j`, all succeed together, and
`READ` reports the word itself; a failure `READ` reports by its own name (`43_accessors.md` section 2). -/
def Obligations.AccessorsAgreeWithRead : Prop :=
  ∀ r : ReadResult,
    (∀ w, r = .ok w → (readReport r).1 = .ok ∧ (readReport r).2.toNat = w.toNat ∧
      (∀ i, i ≤ 11 → (readpinReport i r).1 = .ok ∧ (readpinReport i r).2.toNat = w.toNat / 2 ^ i % 2) ∧
      (readarrReport r).1 = .ok ∧
      (∀ j, j ≤ 11 → (readarrReport r).2.toNat / 2 ^ j % 2 = (readpinReport (11 - j) r).2.toNat)) ∧
    ((∀ w, r ≠ .ok w) →
      (r = .timeoutWaitingForSync → readReport r = (.timeoutWaitingForSync, 0#32)) ∧
      (r = .syncLostAfterPreamble → readReport r = (.syncLostAfterPreamble, 0#32)) ∧
      (r = .malformedDataPulse → readReport r = (.malformedDataPulse, 0#32)) ∧
      (∀ i, readpinReport i r = (.readError, 0#32)) ∧ readarrReport r = (.noData, 0#32))

/-- The ideal frame at a period of `P` whole microseconds decodes to its bits (`42_read.md` section 4). -/
def Obligations.IdealFrameDecodes : Prop :=
  ∀ (P : Nat) (bs : List Bool) (rest : List Answer), 1 ≤ P → 36 * P < 2 ^ 32 → bs.length = 12 →
    ∃ w : DataWord,
      decodeFrame (2 * P) (.dur (BitVec.ofNat 32 (36 * P)) :: .ok ::
        (bs.map (fun b => Answer.dur (BitVec.ofNat 32 (if b then P else 2 * P))) ++ rest)) = some (.ok w, rest) ∧
      (∀ i (h : i < bs.length), w.getLsbD (11 - i) = bs[i])

/-- How many answers a decode consumes, by its outcome (`42_read.md` section 4). -/
def Obligations.DecodeAnswerCounts : Prop :=
  ∀ (c : Nat) (script left : List Answer) (r : ReadResult), decodeFrame c script = some (r, left) →
    ∃ used, script = used ++ left ∧
      match r with
      | .ok _ => 14 ≤ used.length ∧ used.length ≤ 26
      | .timeoutWaitingForSync => 1 ≤ used.length ∧ used.length ≤ 13
      | .syncLostAfterPreamble => 2 ≤ used.length ∧ used.length ≤ 14
      | .malformedDataPulse => 3 ≤ used.length ∧ used.length ≤ 26

/-- `CALAUTO` consumes 65 answers when none is `TimedOut`; the first `TimedOut` is the last answer it consumes and ends it
with `CalTimeout` and no period (`41_calibrate.md` section 4). -/
def Obligations.CalautoStopsAtTheFirstTimeout : Prop :=
  ∀ (nf : Bool) (script left : List Answer) (out : Status × Option Nat), calAuto nf script = some (out, left) →
    ∃ used, script = used ++ left ∧
      (.timedOut ∉ used → used.length = 65) ∧
      (.timedOut ∈ used → used.length ≤ 65 ∧ out = (.calTimeout, none) ∧
        ∃ before, used = before ++ [.timedOut] ∧ .timedOut ∉ before)

/-- At a period above 298261617 half-microseconds no 32-bit duration is a sync pulse, so every read ends
`TimeoutWaitingForSync` (`42_read.md` section 4). -/
def Obligations.TooLongPeriodNeverFindsSync : Prop :=
  ∀ c : Nat, 298261617 < c →
    (∀ d : Word, ¬ SyncWindow c d.toNat) ∧
    (∀ (script left : List Answer) (r : ReadResult), decodeFrame c script = some (r, left) → r = .timeoutWaitingForSync)

/-- A read command runs, edge by edge, to the outcome `decode` gives for its script, reports it as its rule says, and
changes neither `CP` nor `CPV` (`42_read.md` section 3, `43_accessors.md`). -/
def Obligations.ReadCommandsRunDecode : Prop :=
  ∀ (i : Instr) (s : State) (script left : List Answer) (e : Edge) (es later : List Edge) (r : ReadResult)
    (out : Status × Word),
    s.ph = .idle → s.ref = none → s.cpv = true →
    i.report r = some out → (∀ idx t, i = .readpin idx t → idx ≤ 11) →
    s.inputs = e :: (es ++ later) → e.Presents (encode i) → List.Forall₂ Edge.Carries es script →
    decodeFrame s.cp.toNat script = some (r, left) →
    ∃ t, runEdges (1 + (script.length - left.length)) s = .next t ∧ t.runEnded ∧
      t.rsp = rspWord out.1 out.2 ∧ t.cp = s.cp ∧ t.cpv = true ∧
      t.inputs = es.drop (script.length - left.length) ++ later

/-- `CAL` runs, edge by edge, to the outcome of one attempt: a determination is installed and reported, any other end
leaves `CP` and `CPV` (`41_calibrate.md` sections 2, 3). -/
def Obligations.CalRunsOneAttempt : Prop :=
  ∀ (T : Word) (s : State) (script left : List Answer) (e : Edge) (es later : List Edge) (st : Status)
    (p : Option Nat),
    s.ph = .idle → s.ref = none →
    s.inputs = e :: (es ++ later) → e.Presents (encode (.cal T)) → List.Forall₂ Edge.Carries es script →
    calOnce script = some ((st, p), left) →
    ∃ t, runEdges (1 + (script.length - left.length)) s = .next t ∧ t.runEnded ∧
      t.inputs = es.drop (script.length - left.length) ++ later ∧
      t.rsp = rspWord st (BitVec.ofNat 32 (p.getD 0)) ∧
      (∀ v, p = some v → t.cp.toNat = v ∧ t.cpv = true) ∧
      (p = none → t.cp = s.cp ∧ t.cpv = s.cpv)

/-- `CALAUTO` runs, edge by edge, to the outcome of `calAuto` (`41_calibrate.md` section 4). -/
def Obligations.CalautoRunsCalAuto : Prop :=
  ∀ (nf : Bool) (T : Word) (s : State) (script left : List Answer) (e : Edge) (es later : List Edge) (st : Status)
    (p : Option Nat),
    s.ph = .idle → s.ref = none →
    s.inputs = e :: (es ++ later) → e.Presents (encode (.calauto nf T)) → List.Forall₂ Edge.Carries es script →
    calAuto nf script = some ((st, p), left) →
    ∃ t, runEdges (1 + (script.length - left.length)) s = .next t ∧ t.runEnded ∧
      t.inputs = es.drop (script.length - left.length) ++ later ∧
      t.rsp = rspWord st (BitVec.ofNat 32 (p.getD 0)) ∧
      (∀ v, p = some v → t.cp.toNat = v ∧ t.cpv = true) ∧
      (p = none → t.cp = s.cp ∧ t.cpv = s.cpv)

/-- Two reads of the same script, one after the other, report the same and leave the period (`42_read.md` section 4). -/
def Obligations.RepeatedReadReportsTheSame : Prop :=
  ∀ (T : Word) (s : State) (script : List Answer) (e e' : Edge) (es es' later : List Edge) (r : ReadResult),
    s.ph = .idle → s.ref = none → s.cpv = true →
    s.inputs = e :: (es ++ e' :: (es' ++ later)) → e.Presents (encode (.read T)) → e'.Presents (encode (.read T)) →
    List.Forall₂ Edge.Carries es script → List.Forall₂ Edge.Carries es' script →
    decodeFrame s.cp.toNat script = some (r, []) →
    ∃ t u, runEdges (1 + script.length) s = .next t ∧ runEdges (1 + script.length) t = .next u ∧
      t.runEnded ∧ u.runEnded ∧ u.rsp = t.rsp ∧ t.cp = s.cp ∧ u.cp = s.cp

/-! ## The optional reference Pulse Source -/

/-- `20_memory.md` R45: `WAIT(level, T)` issued at `t0`, on any line `L`; and a step of a busy core with the reference source
attached and a `WAIT` outstanding takes that answer, at the next edge (log 9), and moves the position to its return position
(R43). -/
def Obligations.WaitAnswersTheFirstSightOfTheLevel : Prop :=
  (∀ (L : Nat → Level) (level : Level) (T t0 : Nat),
    (∀ s, t0 ≤ s → L s = level → (∀ u, t0 ≤ u → u < s → L u ≠ level) →
      (s - t0 ≤ T → waitAnswer L level T t0 = (.ok, s)) ∧
      (T < s - t0 → waitAnswer L level T t0 = (.timedOut, t0 + T + 1))) ∧
    ((∀ u, t0 ≤ u → L u ≠ level) → waitAnswer L level T t0 = (.timedOut, t0 + T + 1))) ∧
  (∀ (s : State) (p : RefSource) (level : Level) (T : Word), s.ph ≠ .idle → s.edge.rst = false → s.ref = some p →
    s.req = some (.wait level T) →
    step s = answerStep (waitAnswer p.line.level level T.toNat p.now).1
      { s.tick with ref := some { line := p.line, now := (waitAnswer p.line.level level T.toNat p.now).2 } })

/-- `20_memory.md` R46: `MEASURE(level, T)` issued at `t0`, on any line `L`; `IsStart s` says that `s` is the least
transition into the level after `t0`. And a step of a busy core with the reference source attached and a `MEASURE`
outstanding takes that answer, at the next edge (log 9), and moves the position to its return position (R43). -/
def Obligations.MeasureAnswersTheNextWholePulse : Prop :=
  (∀ (L : Nat → Level) (level : Level) (T t0 : Nat) (IsStart : Nat → Prop),
    (∀ s, IsStart s ↔ (t0 < s ∧ L s = level ∧ L (s - 1) ≠ level ∧
      ∀ u, t0 < u → u < s → ¬ (L u = level ∧ L (u - 1) ≠ level))) →
    ((∀ s, ¬ IsStart s) → measureAnswer L level T t0 = (.timedOut, t0 + T + 1)) ∧
    (∀ s, IsStart s →
      (T < s - t0 → measureAnswer L level T t0 = (.timedOut, t0 + T + 1)) ∧
      (s - t0 ≤ T →
        ((∀ e, s < e → L e = level) → measureAnswer L level T t0 = (.timedOut, s + T + 1)) ∧
        (∀ e, s < e → L e ≠ level → (∀ u, s < u → u < e → L u = level) →
          (T < e - s → measureAnswer L level T t0 = (.timedOut, s + T + 1)) ∧
          (e - s ≤ T → measureAnswer L level T t0 = (.dur (BitVec.ofNat 32 (e - s)), e)))))) ∧
  (∀ (s : State) (p : RefSource) (level : Level) (T : Word), s.ph ≠ .idle → s.edge.rst = false → s.ref = some p →
    s.req = some (.measure level T) →
    step s = answerStep (measureAnswer p.line.level level T.toNat p.now).1
      { s.tick with ref := some { line := p.line, now := (measureAnswer p.line.level level T.toNat p.now).2 } })

/-- A request to the reference source returns within `T + 1` or `2 * T + 2` microseconds, never before its issue
(`70_reset_and_hazards.md` section 4). -/
def Obligations.LineAnswersReturnInBoundedTime : Prop :=
  ∀ (L : Nat → Level) (level : Level) (T t0 : Nat),
    t0 ≤ (waitAnswer L level T t0).2 ∧ (waitAnswer L level T t0).2 ≤ t0 + T + 1 ∧
    t0 ≤ (measureAnswer L level T t0).2 ∧ (measureAnswer L level T t0).2 ≤ t0 + 2 * T + 2

/-- Consecutive measurements skip no pulse: what is measured is the whole of the next pulse after the issue, and no pulse
begins from its start to the return position, from which the next request is issued (`20_memory.md` section 4). -/
def Obligations.ConsecutiveMeasuresSkipNoPulse : Prop :=
  ∀ (L : Nat → Level) (level : Level) (T t0 e : Nat) (d : Word), T < 2 ^ 32 →
    measureAnswer L level T t0 = (.dur d, e) →
    ∃ s, t0 < s ∧ s < e ∧ StartsPulse L level s ∧ (∀ u, t0 < u → u ≤ e → u ≠ s → ¬ StartsPulse L level u) ∧
      (∀ u, s ≤ u → u < e → L u = level) ∧ L e ≠ level ∧ d.toNat = e - s

/-! ## The encoding -/

/-- Decoding an encoded command gives it back, for every well-formed command (`30_encoding.md` section 1). -/
def Obligations.DecodeEncodeRoundTrip : Prop :=
  ∀ i : Instr, i.wellFormed = true → decode (encode i) = .ok i

/-- A word that decodes is the encoding of the well-formed command it decodes to, and a word that does not is exactly an
illegal one (`30_encoding.md` section 1). -/
def Obligations.EncodeDecodeRoundTrip : Prop :=
  ∀ w : CmdWord,
    (∀ i, decode w = .ok i → i.wellFormed = true ∧ encode i = w) ∧ ((∃ e, decode w = .error e) ↔ IllegalWord w)

/-- The decoder and `spec/opcode_table.json` agree on every word: a command is the one row its word matches, an illegal word
matches none (`30_encoding.md` section 1). -/
def Obligations.DecoderAgreesWithTheOpcodeTable : Prop :=
  ∀ w : CmdWord,
    (∀ i, decode w = .ok i → (opcodeTable.filter (·.matchesWord w)).map (·.mnemonic) = [i.mnemonic]) ∧
    (∀ e, decode w = .error e → opcodeTable.filter (·.matchesWord w) = [])

/-- Words of `95_test_vectors.md` section 2.1 decode as the table there says. -/
def Obligations.SpecWordsDecode : Prop :=
  decode 0x10000003E8#40 = .ok (.setcp 1000#32) ∧ decode 0x20000186A0#40 = .ok (.cal 100000#32) ∧
  decode 0x30000186A0#40 = .ok (.calauto false 100000#32) ∧ decode 0x31000186A0#40 = .ok (.calauto true 100000#32) ∧
  decode 0x400000C350#40 = .ok (.read 50000#32) ∧ decode 0x5B000186A0#40 = .ok (.readpin 11 100000#32) ∧
  decode 0x60000186A0#40 = .ok (.readarr 100000#32) ∧ decode 0x0000000000#40 = .error .reservedOpcode ∧
  decode 0x32000186A0#40 = .error .illegalAux

/-! ## The whole machine -/

/-- The reset state satisfies the invariant. -/
def Obligations.ResetSatisfiesTheInvariant : Prop := State.reset.Inv

/-- Every step keeps the invariant: the period legal whenever valid, the request the one of the phase, a response only
while idle, with a status of the table and payload 0 on failure, the period stable during a read, every working register in
its range (`10_state.md` sections 2 to 4, `70_reset_and_hazards.md` section 3). -/
def Obligations.StepKeepsTheInvariant : Prop :=
  ∀ s t : State, s.Inv → step s = .next t → t.Inv

/-- In the states of the invariant the machine never stops: every failure is a typed result (`60_exceptions.md` section 1).
That the model stops at all outside them is its own choice (log 6). -/
def Obligations.InvariantStatesNeverStop : Prop :=
  ∀ s : State, s.Inv → ∃ t, step s = .next t

/-- `10_state.md` R13: only `SETCP` with a legal argument, `CAL` when the attempt determines a period, and `CALAUTO` at its
end write `CP`, each what its rule says; no other step does, a read least of all. `MINR` and `MAXR` after the step are those of
the whole attempt, and `N` before it is 12 in the states of the invariant. -/
def Obligations.PeriodWrittenOnlyByItsCommands : Prop :=
  ∀ s t : State, s.edge.rst = false → step s = .next t →
    (t.cp = s.cp ∧ t.cpv = s.cpv) ∨
    (s.ph = .idle ∧ s.edge.cmdValid = true ∧
      ∃ p, decode s.edge.cmd = .ok (.setcp p) ∧ LegalPeriod p.toNat ∧ t.cp = p ∧ t.cpv = true) ∨
    (s.ph = .cals ∧ s.opl = opcodeCal ∧ 13 ≤ s.n.toNat + 1 ∧ t.ph = .idle ∧ t.cpv = true ∧
      ∃ p, classify t.minr.toNat t.maxr.toNat = .det p ∧ t.cp = BitVec.ofNat 32 p) ∨
    (s.ph = .cals ∧ s.opl = opcodeCalauto ∧ 13 ≤ s.n.toNat + 1 ∧ 5 ≤ s.a.toNat + 1 ∧ t.ph = .idle ∧ t.cpv = true ∧
      ((∃ p, classify t.minr.toNat t.maxr.toNat = .det p ∧ t.kd = s.kd + 1#3 ∧ t.sum = s.sum + BitVec.ofNat 35 p) ∨
        (classify t.minr.toNat t.maxr.toNat = .indet ∧ t.kd = s.kd ∧ t.sum = s.sum)) ∧
      ((t.kd ≠ 0#3 ∧ t.cp = BitVec.ofNat 32 (t.sum.toNat / t.kd.toNat)) ∨
        (t.kd = 0#3 ∧ t.cp = BitVec.ofNat 32 Config.defaultCp2)))

/-- A step that changes the period completes its command, with status `OK` or `CalDegraded` and the new period as payload;
so no failure changes it (`60_exceptions.md` section 4). -/
def Obligations.PeriodChangeIsReported : Prop :=
  ∀ s t : State, s.edge.rst = false → step s = .next t → (t.cp ≠ s.cp ∨ t.cpv ≠ s.cpv) →
    t.runEnded ∧ t.cpv = true ∧ (rspStatus t.rsp = 0x00#8 ∨ rspStatus t.rsp = 0x06#8) ∧ rspPayload t.rsp = t.cp

/-- What a step of a running command leaves unchanged: the latched command and the read's period copy; in a read also `CP`,
`CPV` and the calibration registers; in a calibration also the bit registers (`20_memory.md` section 3, `10_state.md`
section 4). -/
def Obligations.RunningCommandFrame : Prop :=
  ∀ s t : State, s.ph ≠ .idle → s.edge.rst = false → step s = .next t →
    t.opl = s.opl ∧ t.auxl = s.auxl ∧ t.tl = s.tl ∧ t.cpl = s.cpl ∧ t.inputs = s.inputs.tail ∧
    (ReadPhase s.ph → t.cp = s.cp ∧ t.cpv = s.cpv ∧ t.minr = s.minr ∧ t.maxr = s.maxr ∧ t.a = s.a ∧ t.kd = s.kd ∧ t.sum = s.sum) ∧
    (s.ph = .sync → t.k = s.k ∧ t.acc = s.acc) ∧
    (s.ph = .dstart ∨ s.ph = .bits → t.n = s.n) ∧
    (s.ph = .cals → t.k = s.k ∧ t.acc = s.acc) ∧
    (t.ph ≠ .idle → t.rsp = s.rsp ∧ t.rspv = s.rspv)

/-- Every command ends after a bounded number of answers, whatever they are: its accept step leaves at most 0, 13, 26 or 65
to come, and that many answers bring any running command to its end (`70_reset_and_hazards.md` section 4). -/
def Obligations.EveryCommandEndsInBoundedAnswers : Prop :=
  (∀ (i : Instr) (s t : State), s.ph = .idle → exec i s = .next t → t.answersLeft ≤ i.answerBound) ∧
  (∀ (s : State) (es rest : List Edge), s.Inv → s.ph ≠ .idle → s.ref = none → s.inputs = es ++ rest →
    es.length = s.answersLeft → (∀ e ∈ es, e.rst = false ∧ e.ansValid = true) →
    ∃ k t, k ≤ s.answersLeft ∧ runEdges k s = .next t ∧ t.runEnded)

/-- A core whose answer never comes stays in its phase, busy, for ever, and nothing the host presents short of a reset
changes it (`20_memory.md` section 2). -/
def Obligations.UnansweredCoreWaitsForEver : Prop :=
  ∀ (s : State) (k : Nat), s.ph ≠ .idle → s.ref = none →
    (∀ e ∈ s.inputs, e.rst = false ∧ e.ansValid = false) →
    runEdges k s = .next { s with inputs := s.inputs.drop k, edges := s.edges + k }

/-- A register that holds no value, or whose value is dead, never matters: states that agree on the rest step to states that
agree, stop alike, and show the same ports (`10_state.md` sections 4, 7). So the values the model names at reset (log 1)
and after a reset edge (log 12) carry no weight. -/
def Obligations.DeadRegistersNeverMatter : Prop :=
  ∀ s u : State, s.Agree u →
    s.outputs = u.outputs ∧
    (∀ t, step s = .next t → ∃ v, step u = .next v ∧ t.Agree v) ∧
    (∀ r, step s = .fault r → step u = .fault r)

/-- The outstanding request is one of three, with the timeout of its phase; the data-start timeout is `5 * CPL` exactly
(`20_memory.md` section 2, `30_encoding.md` section 3). -/
def Obligations.RequestsCarryTheirTimeouts : Prop :=
  ∀ (s : State) (r : Request), s.Inv → s.req = some r →
    (s.ph = .sync ∨ s.ph = .cals → r = .measure .low s.tl) ∧
    (s.ph = .bits → r = .measure .high s.tl) ∧
    (s.ph = .dstart → ∃ T : Word, r = .wait .low T ∧ T.toNat = 5 * s.cpl.toNat) ∧
    s.ph ≠ .idle

/-- The output ports show the registers, and the outstanding request in its port encoding (`10_state.md` section 6,
`30_encoding.md` section 3). -/
def Obligations.PortsShowTheState : Prop :=
  ∀ s : State,
    s.outputs.rspValid = s.rspv ∧ (s.rspv = true → s.outputs.rsp = s.rsp) ∧
    s.outputs.cpValid = s.cpv ∧ (s.cpv = true → s.outputs.cp = s.cp) ∧
    (s.outputs.psReqValid = true ↔ s.req ≠ none) ∧
    (∀ (l : Level) (T : Word), s.req = some (.measure l T) →
      s.outputs.psReqKind = 1#1 ∧ s.outputs.psReqLevel = (if l = .high then 1#1 else 0#1) ∧ s.outputs.psReqTmo = T) ∧
    (∀ (l : Level) (T : Word), s.req = some (.wait l T) →
      s.outputs.psReqKind = 0#1 ∧ s.outputs.psReqLevel = (if l = .high then 1#1 else 0#1) ∧ s.outputs.psReqTmo = T)
end

