-- ==== Sys2Proof/Laws/Encoding.lean ====
section
/-!
SUPPORT. The fields of a command word put together from its fields, and the word put together from its own fields
(`30_encoding.md` rule R50).
-/

namespace Sys2Proof

/-- Each bit of `{op, aux, arg}`. -/
theorem getLsbD_cmdWord (op aux : Nibble) (arg : Word) (i : Nat) :
    (cmdWord op aux arg).getLsbD i =
      if i < 32 then arg.getLsbD i else if i < 36 then aux.getLsbD (i - 32) else op.getLsbD (i - 36) := by
  have outer := BitVec.getLsbD_append (x := op ++ aux) (y := arg) (i := i)
  have inner := BitVec.getLsbD_append (x := op) (y := aux) (i := i - 32)
  refine outer.trans ?_
  split
  · rfl
  · rw [inner]
    split <;> rename_i h1 h2
    · rw [if_pos (by omega)]
    · rw [if_neg (by omega), show i - 32 - 4 = i - 36 by omega]

@[simp] theorem opField_cmdWord (op aux : Nibble) (arg : Word) : opField (cmdWord op aux arg) = op := by
  apply BitVec.eq_of_getLsbD_eq
  intro i hi
  simp only [opField, BitVec.getLsbD_extractLsb', getLsbD_cmdWord, hi, decide_true, Bool.true_and]
  rw [if_neg (by omega), if_neg (by omega), show 36 + i - 36 = i by omega]

@[simp] theorem auxField_cmdWord (op aux : Nibble) (arg : Word) : auxField (cmdWord op aux arg) = aux := by
  apply BitVec.eq_of_getLsbD_eq
  intro i hi
  simp only [auxField, BitVec.getLsbD_extractLsb', getLsbD_cmdWord, hi, decide_true, Bool.true_and]
  rw [if_neg (by omega), if_pos (by omega), show 32 + i - 32 = i by omega]

@[simp] theorem argField_cmdWord (op aux : Nibble) (arg : Word) : argField (cmdWord op aux arg) = arg := by
  apply BitVec.eq_of_getLsbD_eq
  intro i hi
  simp only [argField, BitVec.getLsbD_extractLsb', getLsbD_cmdWord, hi, decide_true, Bool.true_and]
  rw [if_pos (by omega), show 0 + i = i by omega]

/-- No bit of a command word lies outside its three fields. -/
theorem cmdWord_fields (w : CmdWord) : cmdWord (opField w) (auxField w) (argField w) = w := by
  apply BitVec.eq_of_getLsbD_eq
  intro i hi
  rw [getLsbD_cmdWord]
  simp only [opField, auxField, argField, BitVec.getLsbD_extractLsb']
  split
  · simp [*]
  · split
    · simp [show i - 32 < 4 by omega, show 32 + (i - 32) = i by omega]
    · simp [show i - 36 < 4 by omega, show 36 + (i - 36) = i by omega]

end Sys2Proof
end

