-- ==== Sys2Proof/Laws/PerInstr.lean ====
section
/-!
SUPPORT. The family `EncodeFields`: the word of each command carries its opcode, its `aux` and its `arg`, each in its own
field (`30_encoding.md` rules R50, R51).
-/

namespace Sys2Proof.Laws.EncodeFields

/-- The three fields of the command's word. -/
def Statement (i : Instr) : Prop :=
  opField (encode i) = i.opcode ∧ auxField (encode i) = i.aux ∧ argField (encode i) = i.arg

/-- The fields of any word that `encode` puts together. -/
theorem of_encode (i : Instr) : Statement i :=
  ⟨opField_cmdWord _ _ _, auxField_cmdWord _ _ _, argField_cmdWord _ _ _⟩

theorem setcp (p : Word) : Statement (.setcp p) := of_encode _
theorem cal (t : Word) : Statement (.cal t) := of_encode _
theorem calauto (nf : Bool) (t : Word) : Statement (.calauto nf t) := of_encode _
theorem read (t : Word) : Statement (.read t) := of_encode _
theorem readpin (idx : Nat) (t : Word) : Statement (.readpin idx t) := of_encode _
theorem readarr (t : Word) : Statement (.readarr t) := of_encode _

end Sys2Proof.Laws.EncodeFields
end

