-- ==== Sys2Proof/Laws/PulseSource.lean ====
section
/-!
SUPPORT. The reference Pulse Source: what the bounded search finds, and which kinds of answer a request can get
(`20_memory.md` rules R45, R46).
-/

namespace Sys2Proof.Machine

/-- The search finds `s` exactly when `s` is in its range, satisfies `P`, and nothing before it in the range does. -/
theorem leastFrom_eq_some {P : Nat → Bool} {count t s : Nat} :
    leastFrom P count t = some s ↔ t ≤ s ∧ s < t + count ∧ P s = true ∧ ∀ u, t ≤ u → u < s → P u = false := by
  induction count generalizing t with
  | zero => simp only [leastFrom]; constructor <;> intro h <;> [cases h; omega]
  | succ count ih =>
    simp only [leastFrom]
    split
    · rename_i ht
      constructor
      · rintro ⟨⟩
        exact ⟨le_refl _, by omega, ht, fun u h1 h2 => by omega⟩
      · rintro ⟨h1, -, -, h4⟩
        by_cases h : t = s
        · rw [h]
        · exact absurd ht (by simp [h4 t (le_refl _) (by omega)])
    · rename_i ht
      rw [ih]
      constructor
      · rintro ⟨h1, h2, h3, h4⟩
        refine ⟨by omega, by omega, h3, fun u hu hs => ?_⟩
        by_cases h : u = t
        · simpa [h] using ht
        · exact h4 u (by omega) hs
      · rintro ⟨h1, h2, h3, h4⟩
        have hne : t ≠ s := fun h => ht (h ▸ h3)
        exact ⟨by omega, by omega, h3, fun u hu hs => h4 u (by omega) hs⟩

/-- The search finds nothing exactly when nothing in its range satisfies `P`. -/
theorem leastFrom_eq_none {P : Nat → Bool} {count t : Nat} :
    leastFrom P count t = none ↔ ∀ u, t ≤ u → u < t + count → P u = false := by
  induction count generalizing t with
  | zero => simp only [leastFrom, true_iff]; intro u h1 h2; omega
  | succ count ih =>
    simp only [leastFrom]
    split
    · rename_i ht
      simp only [reduceCtorEq, false_iff]
      exact fun h => by simp [h t (le_refl _) (by omega)] at ht
    · rename_i ht
      rw [ih]
      constructor
      · intro h u h1 h2
        by_cases hu : u = t
        · simpa [hu] using ht
        · exact h u (by omega) (by omega)
      · exact fun h u h1 h2 => h u (by omega) (by omega)

/-- A `WAIT` is answered `Ok` or `TimedOut` (`20_memory.md` R32). -/
theorem waitAnswer_kind (L : Nat → Level) (level : Level) (T t0 : Nat) :
    (waitAnswer L level T t0).1 = .timedOut ∨ (waitAnswer L level T t0).1 = .ok := by
  unfold waitAnswer
  split <;> simp

/-- A `MEASURE` is answered `Dur` or `TimedOut` (`20_memory.md` R32). -/
theorem measureAnswer_kind (L : Nat → Level) (level : Level) (T t0 : Nat) :
    (measureAnswer L level T t0).1 = .timedOut ∨ ∃ d, (measureAnswer L level T t0).1 = .dur d := by
  unfold measureAnswer
  split
  · simp
  · split <;> simp

@[simp] theorem RefSource.moveTo_line (p : RefSource) (now : Nat) : (p.moveTo now).line = p.line := rfl
@[simp] theorem RefSource.moveTo_now (p : RefSource) (now : Nat) : (p.moveTo now).now = now := rfl

end Sys2Proof.Machine
end

