-- ==== Sys2Proof/Laws/State.lean ====
section
/-!
SUPPORT. One lemma for each field and each state operation: what the field is after it.
-/

namespace Sys2Proof.Machine

/-! `State.accept`. -/

@[simp] theorem State.accept_ph (s : State) (op aux : Nibble) (arg : Word) : (s.accept op aux arg).ph = s.ph := rfl
@[simp] theorem State.accept_req (s : State) (op aux : Nibble) (arg : Word) : (s.accept op aux arg).req = s.req := rfl
@[simp] theorem State.accept_cpv (s : State) (op aux : Nibble) (arg : Word) : (s.accept op aux arg).cpv = s.cpv := rfl
@[simp] theorem State.accept_cp (s : State) (op aux : Nibble) (arg : Word) : (s.accept op aux arg).cp = s.cp := rfl
@[simp] theorem State.accept_rspv (s : State) (op aux : Nibble) (arg : Word) : (s.accept op aux arg).rspv = false := rfl
@[simp] theorem State.accept_rsp (s : State) (op aux : Nibble) (arg : Word) : (s.accept op aux arg).rsp = s.rsp := rfl
@[simp] theorem State.accept_opl (s : State) (op aux : Nibble) (arg : Word) : (s.accept op aux arg).opl = op := rfl
@[simp] theorem State.accept_auxl (s : State) (op aux : Nibble) (arg : Word) : (s.accept op aux arg).auxl = aux := rfl
@[simp] theorem State.accept_tl (s : State) (op aux : Nibble) (arg : Word) : (s.accept op aux arg).tl = arg := rfl
@[simp] theorem State.accept_cpl (s : State) (op aux : Nibble) (arg : Word) : (s.accept op aux arg).cpl = s.cpl := rfl
@[simp] theorem State.accept_n (s : State) (op aux : Nibble) (arg : Word) : (s.accept op aux arg).n = s.n := rfl
@[simp] theorem State.accept_k (s : State) (op aux : Nibble) (arg : Word) : (s.accept op aux arg).k = s.k := rfl
@[simp] theorem State.accept_acc (s : State) (op aux : Nibble) (arg : Word) : (s.accept op aux arg).acc = s.acc := rfl
@[simp] theorem State.accept_minr (s : State) (op aux : Nibble) (arg : Word) : (s.accept op aux arg).minr = s.minr := rfl
@[simp] theorem State.accept_maxr (s : State) (op aux : Nibble) (arg : Word) : (s.accept op aux arg).maxr = s.maxr := rfl
@[simp] theorem State.accept_a (s : State) (op aux : Nibble) (arg : Word) : (s.accept op aux arg).a = s.a := rfl
@[simp] theorem State.accept_kd (s : State) (op aux : Nibble) (arg : Word) : (s.accept op aux arg).kd = s.kd := rfl
@[simp] theorem State.accept_sum (s : State) (op aux : Nibble) (arg : Word) : (s.accept op aux arg).sum = s.sum := rfl
@[simp] theorem State.accept_inputs (s : State) (op aux : Nibble) (arg : Word) : (s.accept op aux arg).inputs = s.inputs := rfl
@[simp] theorem State.accept_edges (s : State) (op aux : Nibble) (arg : Word) : (s.accept op aux arg).edges = s.edges := rfl
@[simp] theorem State.accept_ref (s : State) (op aux : Nibble) (arg : Word) : (s.accept op aux arg).ref = s.ref := rfl

/-! `State.issue`. -/

@[simp] theorem State.issue_ph (s : State) (r : Request) : (s.issue r).ph = s.ph := rfl
@[simp] theorem State.issue_req (s : State) (r : Request) : (s.issue r).req = some r := rfl
@[simp] theorem State.issue_cpv (s : State) (r : Request) : (s.issue r).cpv = s.cpv := rfl
@[simp] theorem State.issue_cp (s : State) (r : Request) : (s.issue r).cp = s.cp := rfl
@[simp] theorem State.issue_rspv (s : State) (r : Request) : (s.issue r).rspv = s.rspv := rfl
@[simp] theorem State.issue_rsp (s : State) (r : Request) : (s.issue r).rsp = s.rsp := rfl
@[simp] theorem State.issue_opl (s : State) (r : Request) : (s.issue r).opl = s.opl := rfl
@[simp] theorem State.issue_auxl (s : State) (r : Request) : (s.issue r).auxl = s.auxl := rfl
@[simp] theorem State.issue_tl (s : State) (r : Request) : (s.issue r).tl = s.tl := rfl
@[simp] theorem State.issue_cpl (s : State) (r : Request) : (s.issue r).cpl = s.cpl := rfl
@[simp] theorem State.issue_n (s : State) (r : Request) : (s.issue r).n = s.n := rfl
@[simp] theorem State.issue_k (s : State) (r : Request) : (s.issue r).k = s.k := rfl
@[simp] theorem State.issue_acc (s : State) (r : Request) : (s.issue r).acc = s.acc := rfl
@[simp] theorem State.issue_minr (s : State) (r : Request) : (s.issue r).minr = s.minr := rfl
@[simp] theorem State.issue_maxr (s : State) (r : Request) : (s.issue r).maxr = s.maxr := rfl
@[simp] theorem State.issue_a (s : State) (r : Request) : (s.issue r).a = s.a := rfl
@[simp] theorem State.issue_kd (s : State) (r : Request) : (s.issue r).kd = s.kd := rfl
@[simp] theorem State.issue_sum (s : State) (r : Request) : (s.issue r).sum = s.sum := rfl
@[simp] theorem State.issue_inputs (s : State) (r : Request) : (s.issue r).inputs = s.inputs := rfl
@[simp] theorem State.issue_edges (s : State) (r : Request) : (s.issue r).edges = s.edges := rfl
@[simp] theorem State.issue_ref (s : State) (r : Request) : (s.issue r).ref = s.ref := rfl

/-! `State.complete`. -/

@[simp] theorem State.complete_ph (s : State) (st : Status) (payload : Word) : (s.complete st payload).ph = .idle := rfl
@[simp] theorem State.complete_req (s : State) (st : Status) (payload : Word) : (s.complete st payload).req = none := rfl
@[simp] theorem State.complete_cpv (s : State) (st : Status) (payload : Word) : (s.complete st payload).cpv = s.cpv := rfl
@[simp] theorem State.complete_cp (s : State) (st : Status) (payload : Word) : (s.complete st payload).cp = s.cp := rfl
@[simp] theorem State.complete_rspv (s : State) (st : Status) (payload : Word) : (s.complete st payload).rspv = true := rfl
@[simp] theorem State.complete_rsp (s : State) (st : Status) (payload : Word) : (s.complete st payload).rsp = rspWord st payload := rfl
@[simp] theorem State.complete_opl (s : State) (st : Status) (payload : Word) : (s.complete st payload).opl = s.opl := rfl
@[simp] theorem State.complete_auxl (s : State) (st : Status) (payload : Word) : (s.complete st payload).auxl = s.auxl := rfl
@[simp] theorem State.complete_tl (s : State) (st : Status) (payload : Word) : (s.complete st payload).tl = s.tl := rfl
@[simp] theorem State.complete_cpl (s : State) (st : Status) (payload : Word) : (s.complete st payload).cpl = s.cpl := rfl
@[simp] theorem State.complete_n (s : State) (st : Status) (payload : Word) : (s.complete st payload).n = s.n := rfl
@[simp] theorem State.complete_k (s : State) (st : Status) (payload : Word) : (s.complete st payload).k = s.k := rfl
@[simp] theorem State.complete_acc (s : State) (st : Status) (payload : Word) : (s.complete st payload).acc = s.acc := rfl
@[simp] theorem State.complete_minr (s : State) (st : Status) (payload : Word) : (s.complete st payload).minr = s.minr := rfl
@[simp] theorem State.complete_maxr (s : State) (st : Status) (payload : Word) : (s.complete st payload).maxr = s.maxr := rfl
@[simp] theorem State.complete_a (s : State) (st : Status) (payload : Word) : (s.complete st payload).a = s.a := rfl
@[simp] theorem State.complete_kd (s : State) (st : Status) (payload : Word) : (s.complete st payload).kd = s.kd := rfl
@[simp] theorem State.complete_sum (s : State) (st : Status) (payload : Word) : (s.complete st payload).sum = s.sum := rfl
@[simp] theorem State.complete_inputs (s : State) (st : Status) (payload : Word) : (s.complete st payload).inputs = s.inputs := rfl
@[simp] theorem State.complete_edges (s : State) (st : Status) (payload : Word) : (s.complete st payload).edges = s.edges := rfl
@[simp] theorem State.complete_ref (s : State) (st : Status) (payload : Word) : (s.complete st payload).ref = s.ref := rfl

/-! `State.setPeriod`. -/

@[simp] theorem State.setPeriod_ph (s : State) (p : Word) : (s.setPeriod p).ph = s.ph := rfl
@[simp] theorem State.setPeriod_req (s : State) (p : Word) : (s.setPeriod p).req = s.req := rfl
@[simp] theorem State.setPeriod_cpv (s : State) (p : Word) : (s.setPeriod p).cpv = true := rfl
@[simp] theorem State.setPeriod_cp (s : State) (p : Word) : (s.setPeriod p).cp = p := rfl
@[simp] theorem State.setPeriod_rspv (s : State) (p : Word) : (s.setPeriod p).rspv = s.rspv := rfl
@[simp] theorem State.setPeriod_rsp (s : State) (p : Word) : (s.setPeriod p).rsp = s.rsp := rfl
@[simp] theorem State.setPeriod_opl (s : State) (p : Word) : (s.setPeriod p).opl = s.opl := rfl
@[simp] theorem State.setPeriod_auxl (s : State) (p : Word) : (s.setPeriod p).auxl = s.auxl := rfl
@[simp] theorem State.setPeriod_tl (s : State) (p : Word) : (s.setPeriod p).tl = s.tl := rfl
@[simp] theorem State.setPeriod_cpl (s : State) (p : Word) : (s.setPeriod p).cpl = s.cpl := rfl
@[simp] theorem State.setPeriod_n (s : State) (p : Word) : (s.setPeriod p).n = s.n := rfl
@[simp] theorem State.setPeriod_k (s : State) (p : Word) : (s.setPeriod p).k = s.k := rfl
@[simp] theorem State.setPeriod_acc (s : State) (p : Word) : (s.setPeriod p).acc = s.acc := rfl
@[simp] theorem State.setPeriod_minr (s : State) (p : Word) : (s.setPeriod p).minr = s.minr := rfl
@[simp] theorem State.setPeriod_maxr (s : State) (p : Word) : (s.setPeriod p).maxr = s.maxr := rfl
@[simp] theorem State.setPeriod_a (s : State) (p : Word) : (s.setPeriod p).a = s.a := rfl
@[simp] theorem State.setPeriod_kd (s : State) (p : Word) : (s.setPeriod p).kd = s.kd := rfl
@[simp] theorem State.setPeriod_sum (s : State) (p : Word) : (s.setPeriod p).sum = s.sum := rfl
@[simp] theorem State.setPeriod_inputs (s : State) (p : Word) : (s.setPeriod p).inputs = s.inputs := rfl
@[simp] theorem State.setPeriod_edges (s : State) (p : Word) : (s.setPeriod p).edges = s.edges := rfl
@[simp] theorem State.setPeriod_ref (s : State) (p : Word) : (s.setPeriod p).ref = s.ref := rfl

/-! `State.startBurst`. -/

@[simp] theorem State.startBurst_ph (s : State) : s.startBurst.ph = .cals := rfl
@[simp] theorem State.startBurst_req (s : State) : s.startBurst.req = some (.measure .low s.tl) := rfl
@[simp] theorem State.startBurst_cpv (s : State) : s.startBurst.cpv = s.cpv := rfl
@[simp] theorem State.startBurst_cp (s : State) : s.startBurst.cp = s.cp := rfl
@[simp] theorem State.startBurst_rspv (s : State) : s.startBurst.rspv = s.rspv := rfl
@[simp] theorem State.startBurst_rsp (s : State) : s.startBurst.rsp = s.rsp := rfl
@[simp] theorem State.startBurst_opl (s : State) : s.startBurst.opl = s.opl := rfl
@[simp] theorem State.startBurst_auxl (s : State) : s.startBurst.auxl = s.auxl := rfl
@[simp] theorem State.startBurst_tl (s : State) : s.startBurst.tl = s.tl := rfl
@[simp] theorem State.startBurst_cpl (s : State) : s.startBurst.cpl = s.cpl := rfl
@[simp] theorem State.startBurst_n (s : State) : s.startBurst.n = 0#4 := rfl
@[simp] theorem State.startBurst_k (s : State) : s.startBurst.k = s.k := rfl
@[simp] theorem State.startBurst_acc (s : State) : s.startBurst.acc = s.acc := rfl
@[simp] theorem State.startBurst_minr (s : State) : s.startBurst.minr = s.minr := rfl
@[simp] theorem State.startBurst_maxr (s : State) : s.startBurst.maxr = s.maxr := rfl
@[simp] theorem State.startBurst_a (s : State) : s.startBurst.a = s.a := rfl
@[simp] theorem State.startBurst_kd (s : State) : s.startBurst.kd = s.kd := rfl
@[simp] theorem State.startBurst_sum (s : State) : s.startBurst.sum = s.sum := rfl
@[simp] theorem State.startBurst_inputs (s : State) : s.startBurst.inputs = s.inputs := rfl
@[simp] theorem State.startBurst_edges (s : State) : s.startBurst.edges = s.edges := rfl
@[simp] theorem State.startBurst_ref (s : State) : s.startBurst.ref = s.ref := rfl

/-! `State.tick`. -/

@[simp] theorem State.tick_ph (s : State) : s.tick.ph = s.ph := rfl
@[simp] theorem State.tick_req (s : State) : s.tick.req = s.req := rfl
@[simp] theorem State.tick_cpv (s : State) : s.tick.cpv = s.cpv := rfl
@[simp] theorem State.tick_cp (s : State) : s.tick.cp = s.cp := rfl
@[simp] theorem State.tick_rspv (s : State) : s.tick.rspv = s.rspv := rfl
@[simp] theorem State.tick_rsp (s : State) : s.tick.rsp = s.rsp := rfl
@[simp] theorem State.tick_opl (s : State) : s.tick.opl = s.opl := rfl
@[simp] theorem State.tick_auxl (s : State) : s.tick.auxl = s.auxl := rfl
@[simp] theorem State.tick_tl (s : State) : s.tick.tl = s.tl := rfl
@[simp] theorem State.tick_cpl (s : State) : s.tick.cpl = s.cpl := rfl
@[simp] theorem State.tick_n (s : State) : s.tick.n = s.n := rfl
@[simp] theorem State.tick_k (s : State) : s.tick.k = s.k := rfl
@[simp] theorem State.tick_acc (s : State) : s.tick.acc = s.acc := rfl
@[simp] theorem State.tick_minr (s : State) : s.tick.minr = s.minr := rfl
@[simp] theorem State.tick_maxr (s : State) : s.tick.maxr = s.maxr := rfl
@[simp] theorem State.tick_a (s : State) : s.tick.a = s.a := rfl
@[simp] theorem State.tick_kd (s : State) : s.tick.kd = s.kd := rfl
@[simp] theorem State.tick_sum (s : State) : s.tick.sum = s.sum := rfl
@[simp] theorem State.tick_inputs (s : State) : s.tick.inputs = s.inputs.tail := rfl
@[simp] theorem State.tick_edges (s : State) : s.tick.edges = s.edges + 1 := rfl
@[simp] theorem State.tick_ref (s : State) : s.tick.ref = s.passTime s.edge := rfl

end Sys2Proof.Machine
end

