-- ==== Sys2Proof/Laws/Step.lean ====
section
/-!
SUPPORT. What each shared operation of the sequencer can do, said once: the answer taken from the channel, the accept
step, the ends of a read and of an attempt, the answer step, and the step.
-/

namespace Sys2Proof.Machine

/-- An answer taken from the channel fits the kind of the outstanding request and changes nothing but the position of the
reference source (`20_memory.md` R32, R34). -/
theorem takeAnswer_some {s u : State} {e : Edge} {ans : Answer} (h : s.takeAnswer e = some (ans, u)) :
    ∃ r, s.req = some r ∧ u = { s with ref := u.ref } ∧ (s.ref = none → u.ref = none) ∧
      ((∃ l T, r = .wait l T ∧ (ans = .timedOut ∨ ans = .ok)) ∨
        (∃ l T, r = .measure l T ∧ (ans = .timedOut ∨ ∃ d, ans = .dur d))) := by
  unfold State.takeAnswer at h
  split at h
  · cases h
  · rename_i r hr
    refine ⟨r, hr, ?_⟩
    split at h
    · split at h
      · cases h
        refine ⟨rfl, id, ?_⟩
        cases r <;> simp only [Edge.answerTo] <;> split <;> simp
      · cases h
    · rename_i p hp
      cases h
      refine ⟨rfl, fun hn => by simp [hp] at hn, ?_⟩
      cases r with
      | wait l T =>
        left
        exact ⟨l, T, rfl, waitAnswer_kind _ _ _ _⟩
      | measure l T =>
        right
        exact ⟨l, T, rfl, measureAnswer_kind _ _ _ _⟩

/-- The ports give the answer they carry, where it is of the kind of the outstanding request (`30_encoding.md` R57). -/
theorem takeAnswer_of_carries {s : State} {e : Edge} {ans : Answer} {r : Request} (hr : s.req = some r) (hn : s.ref = none)
    (h : e.Carries ans)
    (fits : (∃ l T, r = .wait l T ∧ (ans = .timedOut ∨ ans = .ok)) ∨
      (∃ l T, r = .measure l T ∧ (ans = .timedOut ∨ ∃ d, ans = .dur d))) :
    s.takeAnswer e = some (ans, s) := by
  have htmo := h.timedOut
  have hdur := h.dur
  simp only [State.takeAnswer, hr, hn, h.valid, if_true, Edge.answerTo]
  rcases fits with ⟨l, T, rfl, rfl | rfl⟩ | ⟨l, T, rfl, rfl | ⟨d, rfl⟩⟩ <;> simp_all

/-- The attached reference source gives its answer and moves to its return position (`20_memory.md` R43). -/
theorem takeAnswer_of_ref {s : State} {p : RefSource} {r : Request} (e : Edge) (hr : s.req = some r) (hp : s.ref = some p) :
    s.takeAnswer e = some ((p.answer r).1, { s with ref := some (p.moveTo (p.answer r).2) }) := by
  simp [State.takeAnswer, hr, hp]

/-- No answer is taken while none is outstanding (`30_encoding.md` R57). -/
theorem takeAnswer_none_of_req {s : State} (e : Edge) (h : s.req = none) : s.takeAnswer e = none := by
  simp [State.takeAnswer, h]

/-- What `startRead` does (`42_read.md` R94). -/
theorem startRead_cases (s : State) :
    (s.cpv = true ∧ s.startRead = { s with cpl := s.cp, n := 0#4, ph := .sync, req := some (.measure .low s.tl) }) ∨
    (s.cpv = false ∧ s.startRead = s.complete .notConfigured 0#32) := by
  unfold State.startRead
  cases h : s.cpv
  · exact .inr ⟨rfl, rfl⟩
  · exact .inl ⟨rfl, rfl⟩

/-- Every accept step answers a next state (`60_exceptions.md` R120). -/
theorem exec_next (i : Instr) (s : State) : ∃ t, exec i s = .next t := by
  cases i with
  | setcp p =>
    simp only [exec, execSetcp]
    split <;> exact ⟨_, rfl⟩
  | cal t => exact ⟨_, rfl⟩
  | calauto nf t => exact ⟨_, rfl⟩
  | read t => exact ⟨_, rfl⟩
  | readpin idx t =>
    simp only [exec, execReadpin]
    split <;> exact ⟨_, rfl⟩
  | readarr t => exact ⟨_, rfl⟩

/-- The accept step of any word: a command's accept step, or `IllegalCmd`. -/
theorem acceptWord_cases (w : CmdWord) (s : State) :
    (∃ i t, decode w = .ok i ∧ acceptWord w s = exec i s ∧ exec i s = .next t) ∨
    (∃ e, decode w = .error e ∧ acceptWord w s = .next (acceptIllegal w s)) := by
  unfold acceptWord
  cases h : decode w with
  | ok i =>
    obtain ⟨t, ht⟩ := exec_next i s
    exact .inl ⟨i, t, rfl, rfl, ht⟩
  | error e => exact .inr ⟨e, rfl, rfl⟩

/-- `readEnd` completes for a read command, and faults for no other reason than `OPL` (`42_read.md` R101). -/
theorem readEnd_cases (r : ReadResult) (s : State) :
    (∃ st p, s.report r = some (st, p) ∧ readEnd r s = .next (s.complete st p)) ∨
    (¬ IsReadOpcode s.opl ∧ readEnd r s = .fault .opcodeMismatch) := by
  unfold readEnd State.report
  by_cases h4 : s.opl = opcodeRead
  · exact .inl ⟨_, _, by rw [if_pos h4], by rw [if_pos h4]⟩
  by_cases h5 : s.opl = opcodeReadpin
  · exact .inl ⟨_, _, by rw [if_neg h4, if_pos h5], by rw [if_neg h4, if_pos h5]⟩
  by_cases h6 : s.opl = opcodeReadarr
  · exact .inl ⟨_, _, by rw [if_neg h4, if_neg h5, if_pos h6], by rw [if_neg h4, if_neg h5, if_pos h6]⟩
  · exact .inr ⟨by simp [IsReadOpcode, h4, h5, h6], by rw [if_neg h4, if_neg h5, if_neg h6]⟩

/-- A failed decode reports payload 0 and no success (`30_encoding.md` R56). -/
theorem report_failure {s : State} {r : ReadResult} {st : Status} {p : Word} (h : s.report r = some (st, p)) :
    ¬ IsSuccess st → p = 0#32 := by
  unfold State.report at h
  intro hst
  split at h
  · cases r <;> simp [readReport] at h <;> simp_all [IsSuccess]
  split at h
  · cases r <;> simp [readpinReport] at h <;> simp_all [IsSuccess]
  split at h
  · cases r <;> simp [readarrReport] at h <;> simp_all [IsSuccess]
  · cases h

/-- The status and payload of a completed response (`30_encoding.md` R55). -/
theorem rspStatus_rspWord (st : Status) (p : Word) : rspStatus (rspWord st p) = st.code := by
  apply BitVec.eq_of_getLsbD_eq
  intro i hi
  have := BitVec.getLsbD_append (x := st.code) (y := p) (i := 32 + i)
  simp only [rspStatus, rspWord, BitVec.getLsbD_extractLsb', hi, decide_true, Bool.true_and]
  refine this.trans ?_
  rw [if_neg (by omega), show 32 + i - 32 = i by omega]

theorem rspPayload_rspWord (st : Status) (p : Word) : rspPayload (rspWord st p) = p := by
  apply BitVec.eq_of_getLsbD_eq
  intro i hi
  have := BitVec.getLsbD_append (x := st.code) (y := p) (i := 0 + i)
  simp only [rspPayload, rspWord, BitVec.getLsbD_extractLsb', hi, decide_true, Bool.true_and]
  refine this.trans ?_
  rw [if_pos (by omega), show 0 + i = i by omega]

/-- The five things one rising edge can do. -/
theorem step_cases (s : State) :
    (s.edge.rst = true ∧ step s = .next s.tick.resetStep) ∨
    (s.edge.rst = false ∧ s.ph = .idle ∧ s.edge.cmdValid = false ∧ step s = .next s.tick) ∨
    (s.edge.rst = false ∧ s.ph = .idle ∧ s.edge.cmdValid = true ∧ step s = acceptWord s.edge.cmd s.tick) ∨
    (s.edge.rst = false ∧ s.ph ≠ .idle ∧ s.tick.takeAnswer s.edge = none ∧ step s = .next s.tick) ∨
    (∃ ans u, s.edge.rst = false ∧ s.ph ≠ .idle ∧ s.tick.takeAnswer s.edge = some (ans, u) ∧
      step s = answerStep ans u) := by
  simp only [step, clockEdge, coreStep, State.tick_ph]
  cases hr : s.edge.rst
  · by_cases hp : s.ph = .idle
    · cases hc : s.edge.cmdValid <;> simp [hp]
    · cases ht : s.tick.takeAnswer s.edge with
      | none => simp [hp]
      | some x =>
        exact .inr (.inr (.inr (.inr ⟨x.1, x.2, rfl, hp, rfl, by simp [hp]⟩)))
  · simp

/-- A run of edges of the model is the host's run of the core. -/
theorem runEdges_eq_core_run (k : Nat) (s : State) :
    runEdges k s = Host.Core.run
      { State := State, Fault := Fault, Refusal := Refusal, step := step, reset := State.reset } k s := by
  induction k generalizing s with
  | zero => rfl
  | succ k ih =>
    simp only [runEdges, Host.Core.run]
    cases step s with
    | next t => exact ih t
    | fault r => rfl
    | refused r => rfl

end Sys2Proof.Machine
end

