-- ==== Sys2Proof/Tests/Slice0.lean ====
section
/-!
SUPPORT. Tests of one decode or one step each, their expected results written out from the spec, and for every statement
with hypotheses a witness that meets them.
-/

namespace Sys2Proof.Tests

open Sys2Proof Sys2Proof.Machine

/-! ## Small states -/

/-- An idle core with the period 1000 (500 microseconds), about to be presented `w`. -/
def configured (w : CmdWord) : State := { State.reset with cpv := true, cp := 1000#32, inputs := [commandEdge w] }

/-- An unconfigured idle core, about to be presented `w`. -/
def unconfigured (w : CmdWord) : State := { State.reset with inputs := [commandEdge w] }

/-- A core that runs the command `op`, `aux` with timeout 100000 at period 1000, in phase `p` with its request outstanding,
about to be presented the answer `ans`. -/
def running (p : Phase) (op aux : Nibble) (ans : Answer) : State :=
  let s : State := { State.reset with
    cpv := true, cp := 1000#32, cpl := 1000#32, opl := op, auxl := aux, tl := 100000#32, ph := p, inputs := [ans.edge] }
  { s with req := s.phaseRequest }

/-- The state after one step, where there is one. -/
def after (s : State) : Option State :=
  match step s with
  | .next t => some t
  | .fault _ => none
  | .refused _ => none

/-- The edge that `Answer.edge` makes carries its answer. -/
theorem carries_edge (ans : Answer) : ans.edge.Carries ans := by
  cases ans <;> constructor <;> simp [Answer.edge, Edge.quiet]

/-- So do the edges of a whole script. -/
theorem carries_edges (script : List Answer) : List.Forall₂ Edge.Carries (script.map Answer.edge) script := by
  induction script with
  | nil => exact .nil
  | cons ans script ih => exact .cons (carries_edge ans) ih

/-- A state whose coming edge is made so is answered. -/
theorem answered_of_edge {s : State} {ans : Answer} (h : s.edge = ans.edge ∧ s.ref = none) : s.Answered ans s.tick :=
  .inl ⟨h.2, h.1 ▸ carries_edge ans, rfl⟩

/-- The edge that `commandEdge` makes presents its word. -/
theorem presents_commandEdge (w : CmdWord) : (commandEdge w).Presents w := ⟨rfl, rfl, rfl⟩

/-- The script `GOOD` of `95_test_vectors.md`: its word is 0xD36 at period 1000. -/
def good : List Answer :=
  [.dur 18000#32, .ok, .dur 500#32, .dur 500#32, .dur 1000#32, .dur 500#32, .dur 1000#32, .dur 1000#32, .dur 500#32,
   .dur 500#32, .dur 1000#32, .dur 500#32, .dur 500#32, .dur 1000#32]

/-! ## Well-formedness (`30_encoding.md` R52, R58) -/

theorem test_readpin_index_15_is_wellFormed : (Instr.readpin 15 0#32).wellFormed = true := by decide
theorem test_readpin_index_16_is_refused : (Instr.readpin 16 0#32).wellFormed = false := by decide

/-! ## Decoding: the words, bit by bit from `30_encoding.md` R50, R51 -/

theorem test_decode_setcp :
    decode 0b0001_0000_00000000_00000000_00000011_11101000#40 = .ok (.setcp 1000#32) := by decide
theorem test_decode_cal :
    decode 0b0010_0000_00000000_00000001_10000110_10100000#40 = .ok (.cal 100000#32) := by decide
theorem test_decode_calauto :
    decode 0b0011_0000_10000000_00000000_00000000_00000001#40 = .ok (.calauto false 0x80000001#32) := by decide
theorem test_decode_calauto_nf :
    decode 0b0011_0001_00000000_00000000_00000000_00000010#40 = .ok (.calauto true 2#32) := by decide
theorem test_decode_read :
    decode 0b0100_0000_11111111_11111111_11111111_11111111#40 = .ok (.read 4294967295#32) := by decide
theorem test_decode_readpin :
    decode 0b0101_1011_00000000_00000001_10000110_10100000#40 = .ok (.readpin 11 100000#32) := by decide
theorem test_decode_readarr :
    decode 0b0110_0000_00000000_00000001_10000110_10100000#40 = .ok (.readarr 100000#32) := by decide
theorem test_decode_reserved :
    decode 0x0000000000#40 = .error .reservedOpcode ∧ decode 0x7000000000#40 = .error .reservedOpcode ∧
    decode 0xF1000003E8#40 = .error .reservedOpcode := by decide
theorem test_decode_illegal_aux :
    decode 0x1100000001#40 = .error .illegalAux ∧ decode 0x2800000001#40 = .error .illegalAux ∧
    decode 0x3200000001#40 = .error .illegalAux ∧ decode 0x4100000001#40 = .error .illegalAux ∧
    decode 0x6F00000001#40 = .error .illegalAux := by decide
theorem test_decodeTableWord_reads_the_row :
    decodeTableWord 40 0x5C000186A0 = some (.readpin 12 100000#32) ∧ decodeTableWord 40 0x8000000000 = none := by decide

/-! ## Text (`30_encoding.md` R58, R59) -/

theorem test_assemble_setcp : assemble "SETCP 1000" = some (.setcp 1000#32) := by decide
theorem test_assemble_calauto_nf : assemble "CALAUTO.NF 0x10" = some (.calauto true 16#32) := by decide
theorem test_assemble_readpin : assemble "READPIN 11, 100000" = some (.readpin 11 100000#32) := by decide
theorem test_assemble_refuses :
    assemble "READPIN 16, 1" = none ∧ assemble "SETCP 4294967296" = none ∧ assemble "READ" = none := by decide
theorem test_construct_expands : (SourceOp.construct 1000#32).expand = .setcp 1000#32 := by decide
theorem test_policy_expands : (SourceOp.calibratePolicy false 7#32).expand = .calauto true 7#32 := by decide

/-! ## One step of each command -/

/-- `40_config.md` R70, R71: `SETCP 858993459` is legal, `SETCP 858993460` is not. -/
theorem test_setcp_at_its_limit :
    (after (unconfigured 0x1033333333#40)).map (fun t => (t.rsp, t.cp, t.cpv)) =
      some (0x0033333333#40, 858993459#32, true) ∧
    (after (unconfigured 0x1033333334#40)).map (fun t => (t.rsp, t.cpv)) = some (0x0B00000000#40, false) := by decide

/-- `41_calibrate.md` R77: no period is needed. -/
theorem test_cal_begins :
    (after (unconfigured 0x20000186A0#40)).map (fun t => (t.ph, t.req, t.rspv)) =
      some (.cals, some (.measure .low 100000#32), false) := by decide

/-- `41_calibrate.md` R78, R79: the thirteenth sample, `mn` = 500 and `mx` = 18000. -/
theorem test_cal_thirteenth_sample :
    (after { running .cals 0x2#4 0x0#4 (.dur 500#32) with n := 12#4, minr := 500#32, maxr := 18000#32 }).map
      (fun t => (t.rsp, t.cp, t.ph)) = some (0x00000003E8#40, 1000#32, .idle) := by decide

/-- `41_calibrate.md` R81, R84: the end of the fifth attempt, `kd` = 4 and `sum` = 4001. -/
theorem test_calauto_averages :
    (after { running .cals 0x3#4 0x0#4 (.dur 1001#32) with
      n := 12#4, minr := 1001#32, maxr := 18018#32, a := 4#3, kd := 3#3, sum := 3000#35 }).map
      (fun t => (t.rsp, t.cp, t.kd)) = some (0x00000003E8#40, 1000#32, 4#3) := by decide

/-- `41_calibrate.md` R84: no attempt determined a period and `nf` = 1. -/
theorem test_calauto_nf_is_indeterminate :
    (after { running .cals 0x3#4 0x1#4 (.dur 500#32) with n := 12#4, minr := 500#32, maxr := 500#32, a := 4#3 }).map
      (fun t => (t.rsp, t.cp)) = some (0x0400000000#40, 1000#32) := by decide

/-- `95_test_vectors.md` section 2.8. -/
theorem test_read_begins :
    (after (configured 0x40000186A0#40)).map (fun t => (t.ph, t.outputs.busy, t.outputs.psReqKind, t.outputs.psReqLevel,
      t.outputs.psReqTmo)) = some (.sync, true, 1#1, 0#1, 0x000186A0#32) := by decide

/-- `42_read.md` R98, R101: the twelfth bit of the word 0xD36. -/
theorem test_read_twelfth_bit :
    (after { running .bits 0x4#4 0x0#4 (.dur 1000#32) with k := 11#4, acc := 0x69B#12 }).map (·.rsp) =
      some 0x0000000D36#40 := by decide

/-- `43_accessors.md` R111: out of range outranks not configured. -/
theorem test_readpin_12_unconfigured : (after (unconfigured 0x5C000186A0#40)).map (·.rsp) = some 0x0700000000#40 := by decide

/-- `43_accessors.md` R110: pin 11 of 0xD36. -/
theorem test_readpin_11 :
    (after { running .bits 0x5#4 0xB#4 (.dur 1000#32) with k := 11#4, acc := 0x69B#12 }).map (·.rsp) =
      some 0x0000000001#40 := by decide

/-- `43_accessors.md` R113: the array of 0xD36. -/
theorem test_readarr_packs_first_received_low :
    (after { running .bits 0x6#4 0x0#4 (.dur 1000#32) with k := 11#4, acc := 0x69B#12 }).map (·.rsp) =
      some 0x00000006CB#40 := by decide

/-- `43_accessors.md` R114. -/
theorem test_readarr_no_data : (after (running .dstart 0x6#4 0x0#4 .timedOut)).map (·.rsp) = some 0x0900000000#40 := by decide

/-- `30_encoding.md` R54. -/
theorem test_illegal_word : (after (configured 0x7000000000#40)).map (fun t => (t.rsp, t.cp, t.cpv)) =
    some (0x0C00000000#40, 1000#32, true) := by decide

/-- `70_reset_and_hazards.md` R140. -/
theorem test_reset_edge :
    (after { running .bits 0x4#4 0x0#4 .ok with k := 5#4, inputs := [{ commandEdge 0x10000003E8#40 with rst := true }] }).map
      (fun t => (t.ph, t.req, t.cpv, t.rspv)) = some (.idle, none, false, false) := by decide

/-! ## The reference source on the first runs of the line of `95_test_vectors.md` P4, in units of 100 microseconds -/

/-- The line of P4 up to its second data pulse, each length divided by 100. -/
def line4 : Line where
  runs := [(.high, 7), (.low, 180), (.high, 5), (.low, 10), (.high, 5), (.low, 10), (.high, 5)]
  tail := .hold .low

theorem test_measure_sync_pulse : measureAnswer line4.level .low 1000 0 = (.dur 180#32, 187) := by decide
theorem test_measure_too_long_pulse : measureAnswer line4.level .low 100 0 = (.timedOut, 108) := by decide
theorem test_wait_data_start : waitAnswer line4.level .low 50 187 = (.ok, 192) := by decide
theorem test_wait_never :
    waitAnswer (Line.level ⟨[(.high, 7), (.low, 180)], .hold .high⟩) .low 50 187 = (.timedOut, 238) := by decide

/-- A line that changes for ever: three low microseconds after every seven high ones. -/
theorem test_measure_on_a_cycle :
    measureAnswer (Line.level ⟨[(.low, 5)], .cycle [(.high, 7), (.low, 3)]⟩) .low 10 42 = (.dur 3#32, 55) := by decide

/-- The step takes the answer of the attached source and moves its position (`20_memory.md` R43). -/
theorem test_step_with_reference_source :
    (after { running .dstart 0x4#4 0#4 .timedOut with ref := some ⟨line4, 187⟩ }).map (fun t => (t.ph, t.ref)) =
      some (.bits, some ⟨line4, 192⟩) := by decide

/-- `30_encoding.md` R57: with `ps_ans_timedout` = 1 the duration port is ignored. -/
theorem test_timed_out_ignores_duration :
    (after { running .sync 0x4#4 0#4 .ok with inputs := [{ Answer.timedOut.edge with ansDur := 18000#32 }] }).map (·.rsp) =
      some 0x0100000000#40 := by decide

/-! ## Witnesses: for each statement with hypotheses, concrete data that meets them, each clause at its bounds -/

theorem witness_SetcpInstallsLegalPeriodElseBadArg :
    State.reset.ph = .idle ∧ (1 ≤ (1#32).toNat ∧ (1#32).toNat ≤ 858993459) ∧
    (1 ≤ (858993459#32).toNat ∧ (858993459#32).toNat ≤ 858993459) ∧
    ((0#32).toNat = 0) ∧ 858993459 < (858993460#32).toNat := by decide

theorem witness_CalAcceptStartsOneBurst : State.reset.ph = .idle := by decide
theorem witness_CalautoAcceptStartsFirstAttempt : State.reset.ph = .idle := by decide

theorem witness_ReadAcceptSeeksSyncIfConfigured :
    (configured 0#40).ph = .idle ∧ (configured 0#40).cpv = true ∧ State.reset.ph = .idle ∧ State.reset.cpv = false := by decide

theorem witness_ReadpinAcceptSeeksSyncIfConfigured :
    (configured 0#40).ph = .idle ∧ 11 ≤ 11 ∧ (configured 0#40).cpv = true ∧ State.reset.ph = .idle ∧ 0 ≤ 11 ∧
    State.reset.cpv = false := by decide

theorem witness_ReadpinBeyondElevenIsOutOfRange :
    State.reset.ph = .idle ∧ (12 ≤ 12 ∧ 12 ≤ 15) ∧ (12 ≤ 15 ∧ 15 ≤ 15) := by decide

theorem witness_ReadarrAcceptSeeksSyncIfConfigured :
    (configured 0#40).ph = .idle ∧ (configured 0#40).cpv = true ∧ State.reset.ph = .idle ∧ State.reset.cpv = false := by decide

theorem witness_AcceptPriority :
    State.reset.ph = .idle ∧ State.reset.cpv = false ∧ IllegalWord 0x0000000000#40 ∧ IllegalWord 0x7000000000#40 ∧
    (opField 0x5C000186A0#40 = 0x5#4 ∧ 11 < (auxField 0x5C000186A0#40).toNat) := by decide

theorem witness_AcceptPriority_of_a_command :
    (¬ IllegalWord 0x40000186A0#40 ∧ opField 0x40000186A0#40 = 0x4#4) ∧
    (¬ IllegalWord 0x5B000186A0#40 ∧ opField 0x5B000186A0#40 = 0x5#4 ∧ (auxField 0x5B000186A0#40).toNat ≤ 11) ∧
    (¬ IllegalWord 0x1033333334#40 ∧ opField 0x1033333334#40 = 0x1#4 ∧ 858993459 < (argField 0x1033333334#40).toNat) ∧
    (¬ IllegalWord 0x1000000000#40 ∧ (argField 0x1000000000#40).toNat = 0) := by decide

theorem witness_IllegalWordOnlyReportsIllegalCmd :
    (unconfigured 0xF000000001#40).ph = .idle ∧ (unconfigured 0xF000000001#40).edge.rst = false ∧
    (unconfigured 0xF000000001#40).edge.cmdValid = true ∧ IllegalWord (unconfigured 0xF000000001#40).edge.cmd ∧
    IllegalWord (unconfigured 0x3200000001#40).edge.cmd ∧ IllegalWord (0x6#4 ++ 0x1#4 ++ 5#32 : CmdWord) := by decide

theorem witness_AcceptStepFrame :
    State.reset.ph = .idle ∧ (exec (.setcp 1#32) State.reset matches .next _) = true ∧ (Instr.setcp 1#32).opcode = 0x1#4 ∧
    (exec (.cal 1#32) State.reset matches .next _) = true ∧ (Instr.cal 1#32).opcode ≠ 0x1#4 ∧
    ¬ IsReadOpcode (Instr.cal 1#32).opcode ∧ (Instr.cal 1#32).opcode ≠ 0x3#4 := by decide

theorem witness_StepRunsTheDecodedCommand :
    (unconfigured 0x31000186A0#40).ph = .idle ∧ (unconfigured 0x31000186A0#40).edge.rst = false ∧
    (unconfigured 0x31000186A0#40).edge.cmdValid = true ∧
    decode (unconfigured 0x31000186A0#40).edge.cmd = .ok (.calauto true 100000#32) := by decide

theorem witness_CommandAcceptedOnlyWhenIdle :
    (unconfigured 1#40).ph = .idle ∧ (unconfigured 1#40).edge.rst = false ∧ (unconfigured 1#40).edge.cmdValid = true ∧
    State.reset.edge.rst = false ∧ State.reset.edge.cmdValid = false ∧
    (running .sync 0x4#4 0#4 .timedOut).ph ≠ .idle ∧
    (running .sync 0x4#4 0#4 .timedOut).inputs = Answer.timedOut.edge :: [] := by decide

theorem witness_IdleCoreIgnoresAnswers :
    (unconfigured 1#40).ph = .idle ∧ (unconfigured 1#40).inputs = commandEdge 1#40 :: [] := by decide

/-- Two states that differ in the command they run and in their registers, both reset at the coming edge. -/
theorem witness_ResetEdgeForgetsEverything :
    let e : Edge := { Edge.quiet with rst := true }
    let s : State := { running .bits 0x4#4 0#4 .ok with k := 5#4, inputs := [e] }
    let u : State := { State.reset with cp := 7#32, inputs := [e] }
    s.edge.rst = true ∧ u.edge.rst = true ∧ s.inputs.tail = u.inputs.tail ∧ s.edges = u.edges ∧
    s.passTime s.edge = u.passTime u.edge ∧ (after s).isSome = true ∧ (after u).isSome = true := by decide

/-- Of a sync pulse the bounds are 14400 and 21600 at period 1000; the twelfth and the thirteenth pulse that is none. -/
theorem witness_SyncAnswerStep :
    let s (ans : Answer) (n : BitVec 4) : State := { running .sync 0x4#4 0#4 ans with n := n }
    (s .timedOut 0#4).ph = .sync ∧ (s .timedOut 0#4).req = some (.measure .low (s .timedOut 0#4).tl) ∧
    (s .timedOut 0#4).Answered .timedOut (s .timedOut 0#4).tick ∧
    ((s (.dur 14400#32) 12#4).Answered (.dur 14400#32) (s (.dur 14400#32) 12#4).tick ∧ SyncWindow 1000 (14400#32).toNat) ∧
    ((s (.dur 21600#32) 0#4).Answered (.dur 21600#32) (s (.dur 21600#32) 0#4).tick ∧ SyncWindow 1000 (21600#32).toNat) ∧
    ((s (.dur 14399#32) 12#4).Answered (.dur 14399#32) (s (.dur 14399#32) 12#4).tick ∧ ¬ SyncWindow 1000 (14399#32).toNat ∧
      (12#4).toNat + 1 = 13) ∧
    ((s (.dur 21601#32) 11#4).Answered (.dur 21601#32) (s (.dur 21601#32) 11#4).tick ∧ ¬ SyncWindow 1000 (21601#32).toNat ∧
      (11#4).toNat + 1 < 13) := by
  intro s
  and_intros
  all_goals first | decide | exact answered_of_edge (by decide)

theorem witness_DataStartAnswerStep :
    let s (ans : Answer) : State := running .dstart 0x4#4 0#4 ans
    (s .ok).ph = .dstart ∧ (s .ok).req = some (.wait .low (dataStartTimeout (s .ok).cpl)) ∧
    (s .ok).Answered .ok (s .ok).tick ∧ (s .timedOut).Answered .timedOut (s .timedOut).tick := by
  intro s
  and_intros
  all_goals first | decide | exact answered_of_edge (by decide)

theorem witness_BitsAnswerStep :
    let s (ans : Answer) (k : BitVec 4) : State := { running .bits 0x4#4 0#4 ans with k := k }
    (s .timedOut 0#4).ph = .bits ∧ (s .timedOut 0#4).req = some (.measure .high (s .timedOut 0#4).tl) ∧
    (s .timedOut 0#4).Answered .timedOut (s .timedOut 0#4).tick ∧
    ((s (.dur 601#32) 0#4).Answered (.dur 601#32) (s (.dur 601#32) 0#4).tick ∧ ¬ OneWindow 1000 601 ∧ ¬ ZeroWindow 1000 601) ∧
    ((s (.dur 600#32) 11#4).Answered (.dur 600#32) (s (.dur 600#32) 11#4).tick ∧ OneWindow 1000 600 ∧ (11#4).toNat + 1 = 12) ∧
    ((s (.dur 400#32) 10#4).Answered (.dur 400#32) (s (.dur 400#32) 10#4).tick ∧ OneWindow 1000 400 ∧ (10#4).toNat + 1 < 12) ∧
    ((s (.dur 800#32) 11#4).Answered (.dur 800#32) (s (.dur 800#32) 11#4).tick ∧ ¬ OneWindow 1000 800 ∧ ZeroWindow 1000 800) ∧
    ((s (.dur 1200#32) 0#4).Answered (.dur 1200#32) (s (.dur 1200#32) 0#4).tick ∧ ¬ OneWindow 1000 1200 ∧
      ZeroWindow 1000 1200) := by
  intro s
  and_intros
  all_goals first | decide | exact answered_of_edge (by decide)

theorem witness_CalibrationAnswerStep :
    let s (ans : Answer) (n : BitVec 4) : State := { running .cals 0x2#4 0#4 ans with n := n, minr := 500#32, maxr := 1000#32 }
    (s .timedOut 0#4).ph = .cals ∧ (s .timedOut 0#4).req = some (.measure .low (s .timedOut 0#4).tl) ∧
    (s .timedOut 0#4).Answered .timedOut (s .timedOut 0#4).tick ∧
    ((s (.dur 0#32) 0#4).Answered (.dur 0#32) (s (.dur 0#32) 0#4).tick ∧
      (0#32).toNat = (if (0#4) = 0#4 then (0#32).toNat else min (500#32).toNat (0#32).toNat) ∧ (0#4).toNat + 1 < 13) ∧
    ((s (.dur 18000#32) 12#4).Answered (.dur 18000#32) (s (.dur 18000#32) 12#4).tick ∧
      (500#32).toNat = (if (12#4) = 0#4 then (18000#32).toNat else min (500#32).toNat (18000#32).toNat) ∧
      (18000#32).toNat = (if (12#4) = 0#4 then (18000#32).toNat else max (1000#32).toNat (18000#32).toNat) ∧
      (12#4).toNat + 1 = 13) := by
  intro s
  and_intros
  all_goals first | decide | exact answered_of_edge (by decide)

theorem witness_CalAttemptEnd : (running .cals 0x2#4 0#4 .timedOut).opl = 0x2#4 := by decide

theorem witness_CalautoAttemptEnd :
    let s (a : BitVec 3) : State := { running .cals 0x3#4 0#4 .timedOut with a := a, kd := 4#3, sum := 1060485748#35 }
    (s 3#3).opl = 0x3#4 ∧ (s 3#3).a.toNat + 1 < 5 ∧ (s 4#3).opl = 0x3#4 ∧ (s 4#3).a.toNat + 1 = 5 ∧ (s 4#3).kd.toNat < 5 ∧
    (s 4#3).sum.toNat + 265121437 < 2 ^ 35 := by decide

theorem witness_FinishAveragesOrFallsBack : 0 < 1 ∧ 1 ≤ 1 ∧ 0 < 5 ∧ 5 ≤ 4001 := by decide

theorem witness_ReadReportsWordOrFailure : (running .bits 0x4#4 0#4 .ok).opl = 0x4#4 := by decide

theorem witness_ReadpinReportsBitOrReadError :
    (running .bits 0x5#4 11#4 .ok).opl = 0x5#4 ∧ ∀ w, ReadResult.malformedDataPulse ≠ .ok w :=
  ⟨by decide, fun _ h => by cases h⟩

theorem witness_ReadarrReportsArrayOrNoData :
    (running .bits 0x6#4 0#4 .ok).opl = 0x6#4 ∧ ∀ w, ReadResult.timeoutWaitingForSync ≠ .ok w :=
  ⟨by decide, fun _ h => by cases h⟩

theorem witness_CompleteWritesOnlyTheResponse :
    State.reset.edge.rst = false ∧ State.reset.edge.cmdValid = false ∧
    exec (.cal 9#32) (State.reset.complete .ok 7#32) =
      .next ((State.reset.complete .ok 7#32).accept 0x2#4 0#4 9#32).startBurst ∧
    ((State.reset.complete .ok 7#32).accept 0x2#4 0#4 9#32).startBurst.ph ≠ .idle :=
  ⟨by decide, by decide, rfl, by decide⟩

theorem witness_WindowsAreTheExactIntervals :
    (500 : ℚ) = (1000 : ℕ) / 2 ∧ (400 : ℚ) = (8 / 10) * 500 ∧ (600 : ℚ) = (12 / 10) * 500 := by norm_num

theorem witness_DeadZoneIsNoBit :
    1 ≤ 1000 ∧ SyncWindow 1000 14400 ∧ (3 * 1000 < 5 * 601 ∧ 5 * 601 < 4 * 1000) ∧ (3 * 1000 < 5 * 799 ∧ 5 * 799 < 4 * 1000) ∧
    5 * 399 < 2 * 1000 ∧ 6 * 1000 < 5 * 1201 := by decide

/-- The edges of the two bands of `41_calibrate.md` R86, and the neighbours outside. -/
theorem witness_ClassifyIsTheRatioTest :
    (0 ≤ 5) ∧ (10 ≤ 324) ∧ (0 < 10) ∧ ((324 / 10 : ℚ) ≤ (324 : ℕ) / (10 : ℕ) ∧ ((324 : ℕ) / (10 : ℕ) : ℚ) ≤ 396 / 10) ∧
    ((162 / 10 : ℚ) ≤ (198 : ℕ) / (10 : ℕ) ∧ ((198 : ℕ) / (10 : ℕ) : ℚ) ≤ 198 / 10) ∧
    ¬ ((324 / 10 : ℚ) ≤ (323 : ℕ) / (10 : ℕ)) ∧ ¬ (((323 : ℕ) / (10 : ℕ) : ℚ) ≤ 198 / 10) ∧ 18000 < 2 ^ 32 ∧
    classify 500 18000 = .det 1000 := by
  refine ⟨?_, ?_, ?_, ⟨?_, ?_⟩, ⟨?_, ?_⟩, ?_, ?_, ?_, by decide⟩ <;> norm_num

theorem witness_AccumulatorIsMostSignificantFirst :
    [true, true, false, true, false, false, true, true, false, true, true, false].length ≤ 12 := by decide

theorem witness_PinAndArrayIndicesRunOpposite : 0 ≤ 11 ∧ 11 ≤ 11 := by decide

theorem witness_AccessorsAgreeWithRead :
    ReadResult.ok 0xD36#12 = .ok 0xD36#12 ∧ 11 ≤ 11 ∧ ∀ w, ReadResult.syncLostAfterPreamble ≠ .ok w :=
  ⟨rfl, by decide, fun _ h => by cases h⟩

theorem witness_IdealFrameDecodes :
    1 ≤ 1 ∧ 36 * 119304647 < 2 ^ 32 ∧
    [true, false, true, false, true, false, true, false, true, false, true, false].length = 12 := by decide

theorem witness_DecodeAnswerCounts :
    decodeFrame 1000 (good ++ [.ok]) = some (.ok 0xD36#12, [.ok]) ∧
    decodeFrame 1000 [.timedOut] = some (.timeoutWaitingForSync, []) ∧
    decodeFrame 1000 (List.replicate 13 (.dur 100#32)) = some (.timeoutWaitingForSync, []) ∧
    decodeFrame 1000 [.dur 18000#32, .timedOut] = some (.syncLostAfterPreamble, []) ∧
    decodeFrame 1000 [.dur 18000#32, .ok, .dur 700#32] = some (.malformedDataPulse, []) := by decide

theorem witness_CalautoStopsAtTheFirstTimeout :
    calAuto true (List.replicate 65 (.dur 500#32)) = some ((.calIndeterminate, none), []) ∧
    calAuto false [.dur 500#32, .timedOut, .ok] = some ((.calTimeout, none), [.ok]) := by decide

theorem witness_TooLongPeriodNeverFindsSync :
    298261617 < 298261618 ∧ decodeFrame 298261618 [.dur 4294967295#32, .timedOut] = some (.timeoutWaitingForSync, []) := by
  decide

theorem witness_ReadCommandsRunDecode :
    let s (i : Instr) (script : List Answer) : State :=
      { configured 0#40 with inputs := commandEdge (encode i) :: (script.map Answer.edge ++ []) }
    (commandEdge (encode (.read 9#32))).Presents (encode (.read 9#32)) ∧
    List.Forall₂ Edge.Carries (good.map Answer.edge) good ∧
    ((s (.read 9#32) good).ph = .idle ∧ (s (.read 9#32) good).ref = none ∧ (s (.read 9#32) good).cpv = true ∧
    (Instr.read 9#32).report (.ok 0xD36#12) = some (.ok, 0xD36#32) ∧
    (Instr.readpin 11 9#32).report .malformedDataPulse = some (.readError, 0#32) ∧ 11 ≤ 11 ∧
    (Instr.readarr 9#32).report .timeoutWaitingForSync = some (.noData, 0#32) ∧
    decodeFrame (s (.read 9#32) good).cp.toNat good = some (.ok 0xD36#12, []) ∧
    decodeFrame (s (.readarr 9#32) [.timedOut]).cp.toNat [.timedOut] = some (.timeoutWaitingForSync, [])) :=
  ⟨presents_commandEdge _, carries_edges _, by decide⟩

/-- An answer that timed out, beside a duration and a command that count for nothing. -/
theorem witness_ReadCommandsRunDecode_busy_ports :
    ({ commandEdge 1#40 with ansValid := true, ansTimedout := true, ansDur := 7#32 } : Edge).Carries .timedOut :=
  ⟨rfl, rfl, by simp, fun _ h => by cases h⟩

theorem witness_CalRunsOneAttempt :
    let script : List Answer := .dur 18000#32 :: List.replicate 12 (.dur 500#32)
    let s : State := { State.reset with inputs := commandEdge (encode (.cal 9#32)) :: (script.map Answer.edge ++ []) }
    (commandEdge (encode (.cal 9#32))).Presents (encode (.cal 9#32)) ∧
    List.Forall₂ Edge.Carries (script.map Answer.edge) script ∧
    (s.ph = .idle ∧ s.ref = none ∧ calOnce script = some ((.ok, some 1000), []) ∧
    calOnce [.timedOut] = some ((.calTimeout, none), [])) :=
  ⟨presents_commandEdge _, carries_edges _, by decide⟩

theorem witness_CalautoRunsCalAuto :
    let script : List Answer := List.replicate 65 (.dur 500#32)
    let s : State := { State.reset with inputs := commandEdge (encode (.calauto true 9#32)) :: (script.map Answer.edge ++ []) }
    (commandEdge (encode (.calauto true 9#32))).Presents (encode (.calauto true 9#32)) ∧
    List.Forall₂ Edge.Carries (script.map Answer.edge) script ∧
    (s.ph = .idle ∧ s.ref = none ∧ calAuto true script = some ((.calIndeterminate, none), [])) :=
  ⟨presents_commandEdge _, carries_edges _, by decide⟩

theorem witness_RepeatedReadReportsTheSame :
    let s : State := { configured 0#40 with
      inputs := commandEdge (encode (.read 9#32)) :: (good.map Answer.edge ++
        commandEdge (encode (.read 9#32)) :: (good.map Answer.edge ++ [])) }
    (commandEdge (encode (.read 9#32))).Presents (encode (.read 9#32)) ∧
    List.Forall₂ Edge.Carries (good.map Answer.edge) good ∧
    (s.ph = .idle ∧ s.ref = none ∧ s.cpv = true ∧ decodeFrame s.cp.toNat good = some (.ok 0xD36#12, [])) :=
  ⟨presents_commandEdge _, carries_edges _, by decide⟩

/-- High for five microseconds, then low for ever: seen from 0 the first low is at 5, and from 5 on no high. A read that waits
for data on the line of P4. -/
theorem witness_WaitAnswersTheFirstSightOfTheLevel :
    let L : Nat → Level := fun t => if t < 5 then .high else .low
    let s : State := { running .dstart 0x4#4 0#4 .ok with ref := some ⟨line4, 187⟩ }
    (0 ≤ 5 ∧ L 5 = .low ∧ (∀ u, 0 ≤ u → u < 5 → L u ≠ .low) ∧ 5 - 0 ≤ 5 ∧ 4 < 5 - 0) ∧
    (∀ u, 5 ≤ u → L u ≠ .high) ∧
    (s.ph ≠ .idle ∧ s.edge.rst = false ∧ s.ref = some ⟨line4, 187⟩ ∧ s.req = some (.wait .low 5000#32)) := by
  refine ⟨⟨by decide, by decide, ?_, by decide, by decide⟩, ?_, by decide⟩
  · intro u _ h
    simp [h]
  · intro u h
    simp [Nat.not_lt.mpr h]

/-- A low pulse from 5 to 12 on a high line, and a line that falls at 5 for ever: from 0 the low pulse starts at 5; no high
pulse starts on a line that stays low. A read that seeks sync on the line of P4. -/
theorem witness_MeasureAnswersTheNextWholePulse :
    let L : Nat → Level := fun t => if t < 5 ∨ 12 ≤ t then .high else .low
    let falls : Nat → Level := fun t => if t < 5 then .high else .low
    let low : Nat → Level := fun _ => .low
    let s : State := { running .sync 0x4#4 0#4 .ok with ref := some ⟨line4, 0⟩ }
    (0 < 5 ∧ L 5 = .low ∧ L (5 - 1) ≠ .low ∧ ∀ u, 0 < u → u < 5 → ¬ (L u = .low ∧ L (u - 1) ≠ .low)) ∧
    (4 < 5 - 0 ∧ 5 - 0 ≤ 6 ∧ 6 < 12 - 5 ∧ 12 - 5 ≤ 7) ∧
    (5 < 12 ∧ L 12 ≠ .low ∧ ∀ u, 5 < u → u < 12 → L u = .low) ∧
    (∀ v, ¬ (0 < v ∧ low v = .high ∧ low (v - 1) ≠ .high ∧
      ∀ u, 0 < u → u < v → ¬ (low u = .high ∧ low (u - 1) ≠ .high))) ∧
    (∀ e, 5 < e → falls e = .low) ∧
    (s.ph ≠ .idle ∧ s.edge.rst = false ∧ s.ref = some ⟨line4, 0⟩ ∧ s.req = some (.measure .low 100000#32)) := by
  refine ⟨⟨by decide, by decide, by decide, ?_⟩, by decide, ⟨by decide, by decide, ?_⟩, ?_, ?_, by decide⟩
  · intro u _ h
    simp [h]
  · intro u h h'
    simp only
    rw [if_neg (by omega)]
  · intro v h
    simp at h
  · intro e h
    simp only
    rw [if_neg (by omega)]

theorem witness_ConsecutiveMeasuresSkipNoPulse :
    1000 < 2 ^ 32 ∧ measureAnswer line4.level .low 1000 187 = (.dur 10#32, 202) := by decide

theorem witness_DecodeEncodeRoundTrip : (Instr.readpin 15 0xFFFFFFFF#32).wellFormed = true := by decide

theorem witness_EncodeDecodeRoundTrip :
    decode 0x5F000186A0#40 = .ok (.readpin 15 100000#32) ∧ decode 0xF000000000#40 = .error .reservedOpcode := by decide

theorem witness_DecoderAgreesWithTheOpcodeTable :
    decode 0x31000186A0#40 = .ok (.calauto true 100000#32) ∧ decode 0x3200000000#40 = .error .illegalAux := by decide

/-- A read in its second sync pulse, a read that waits for data, a read with eleven bits and a `CALAUTO` in its fifth attempt
satisfy the invariant. -/
theorem running_inv_sync : ({ running .sync 0x4#4 0#4 (.dur 100#32) with n := 1#4 } : State).Inv :=
  ⟨by decide, by decide, by decide, fun h => absurd h (by decide), by decide, by decide, by decide, by decide,
    ⟨by decide, by decide, by decide, by decide, by decide, by decide, by decide⟩, by decide, by decide, by decide⟩

theorem running_inv_dstart : (running .dstart 0x5#4 11#4 .ok).Inv :=
  ⟨by decide, by decide, by decide, fun h => absurd h (by decide), by decide, by decide, by decide, by decide,
    ⟨by decide, by decide, by decide, by decide, by decide, by decide, by decide⟩, by decide, by decide, by decide⟩

theorem running_inv_bits : ({ running .bits 0x4#4 0#4 .timedOut with k := 11#4, acc := 0x69B#12 } : State).Inv :=
  ⟨by decide, by decide, by decide, fun h => absurd h (by decide), by decide, by decide, by decide, by decide,
    ⟨by decide, by decide, by decide, by decide, by decide, by decide, by decide⟩, by decide, by decide, by decide⟩

theorem running_inv_cals :
    ({ running .cals 0x3#4 0#4 (.dur 500#32) with
      n := 12#4, minr := 500#32, maxr := 500#32, a := 4#3, kd := 1#3, sum := 1000#35 } : State).Inv :=
  ⟨by decide, by decide, by decide, fun h => absurd h (by decide), by decide, by decide, by decide, by decide,
    ⟨by decide, by decide, by decide, by decide, by decide, by decide, by decide⟩, by decide, by decide, by decide⟩

theorem witness_StepKeepsTheInvariant :
    ∃ s t : State, s.Inv ∧ s.ph = .sync ∧ step s = .next t :=
  ⟨_, _, running_inv_sync, rfl, rfl⟩

theorem witness_InvariantStatesNeverStop : ∃ s : State, s.Inv ∧ s.ph = .dstart := ⟨_, running_inv_dstart, rfl⟩

/-- One state for each of the four writers, its step taken to the last, and one for none: `SETCP`, the thirteenth sample of a
`CAL` that determines a period, and of a fifth attempt of `CALAUTO` with and without a determination. -/
theorem witness_PeriodWrittenOnlyByItsCommands :
    let calLast : State := { running .cals 0x2#4 0#4 (.dur 500#32) with n := 12#4, minr := 500#32, maxr := 18000#32 }
    let autoLast : State := { running .cals 0x3#4 0#4 (.dur 500#32) with n := 12#4, minr := 500#32, maxr := 18000#32, a := 4#3 }
    let autoNone : State := { running .cals 0x3#4 0#4 (.dur 500#32) with n := 12#4, minr := 500#32, maxr := 500#32, a := 4#3 }
    ((unconfigured 0x10000003E8#40).edge.rst = false ∧
      (after (unconfigured 0x10000003E8#40)).map (·.cp) = some 1000#32) ∧
    (calLast.edge.rst = false ∧ (after calLast).map (fun t => (t.cp, classify t.minr.toNat t.maxr.toNat)) =
      some (1000#32, .det 1000)) ∧
    (autoLast.edge.rst = false ∧ (after autoLast).map (fun t => (t.cp, t.kd, t.sum)) = some (1000#32, 1#3, 1000#35)) ∧
    (autoNone.edge.rst = false ∧ (after autoNone).map (fun t => (t.kd, classify t.minr.toNat t.maxr.toNat)) =
      some (0#3, .indet)) ∧
    (State.reset.edge.rst = false ∧ (after State.reset).map (·.cpv) = some false) := by decide

theorem witness_PeriodChangeIsReported :
    (unconfigured 0x10000003E8#40).edge.rst = false ∧
    (after (unconfigured 0x10000003E8#40)).map (fun t => (t.cp, t.cpv)) = some (1000#32, true) ∧
    (unconfigured 0x10000003E8#40).cpv = false := by decide

theorem witness_RunningCommandFrame :
    (∀ p ∈ [Phase.sync, .dstart, .bits, .cals],
      let s := running p (if p = .cals then 0x2#4 else 0x4#4) 0#4 .timedOut
      s.ph ≠ .idle ∧ s.edge.rst = false ∧ (after s).isSome = true) ∧
    ReadPhase .sync ∧ (after (running .sync 0x4#4 0#4 (.dur 100#32))).map (·.ph) = some .sync := by decide

theorem witness_EveryCommandEndsInBoundedAnswers :
    (∃ t, exec (.calauto false 9#32) State.reset = .next t) ∧ State.reset.ph = .idle ∧
    ∃ s : State, s.Inv ∧ s.ph ≠ .idle ∧ s.ref = none ∧ s.inputs = [Answer.timedOut.edge] ++ [] ∧
      [Answer.timedOut.edge].length = s.answersLeft ∧ (∀ e ∈ [Answer.timedOut.edge], e.rst = false ∧ e.ansValid = true) :=
  ⟨⟨_, rfl⟩, by decide, _, running_inv_bits, by decide, by decide, by decide, by decide, by decide⟩

theorem witness_UnansweredCoreWaitsForEver :
    let s : State := { running .sync 0x4#4 0#4 .timedOut with inputs := [commandEdge 0x10000003E8#40] }
    s.ph ≠ .idle ∧ s.ref = none ∧ (∀ e ∈ s.inputs, e.rst = false ∧ e.ansValid = false) := by decide

/-- Reset states that differ in registers without value, and two states that stop alike. -/
theorem witness_DeadRegistersNeverMatter :
    State.reset.Agree { State.reset with cp := 5#32, rsp := 1#40, opl := 4#4, n := 3#4, acc := 9#12, sum := 8#35 } ∧
    (after State.reset).isSome = true ∧
    step (running .sync 0x0#4 0#4 .timedOut) = .fault .opcodeMismatch ∧
    (running .sync 0x0#4 0#4 .timedOut).Agree { running .sync 0x0#4 0#4 .timedOut with k := 3#4 } := by
  refine ⟨⟨?_, ?_, ?_, ?_, ?_, ?_, ?_, ?_, ?_, ?_, ?_, ?_, ?_, ?_, ?_, ?_, ?_, ?_, ?_, ?_, ?_⟩, ?_, ?_,
    ⟨?_, ?_, ?_, ?_, ?_, ?_, ?_, ?_, ?_, ?_, ?_, ?_, ?_, ?_, ?_, ?_, ?_, ?_, ?_, ?_, ?_⟩⟩
  all_goals first | decide | rfl

theorem witness_RequestsCarryTheirTimeouts :
    (∃ (s : State) (r : Request), s.Inv ∧ s.req = some r ∧ s.ph = .sync) ∧
    (∃ (s : State) (r : Request), s.Inv ∧ s.req = some r ∧ s.ph = .dstart) ∧
    (∃ (s : State) (r : Request), s.Inv ∧ s.req = some r ∧ s.ph = .bits) ∧
    (∃ (s : State) (r : Request), s.Inv ∧ s.req = some r ∧ s.ph = .cals) :=
  ⟨⟨_, _, running_inv_sync, rfl, rfl⟩, ⟨_, _, running_inv_dstart, rfl, rfl⟩, ⟨_, _, running_inv_bits, rfl, rfl⟩,
    ⟨_, _, running_inv_cals, rfl, rfl⟩⟩

theorem witness_PortsShowTheState :
    (State.reset.complete .ok 7#32).rspv = true ∧ (configured 0#40).cpv = true ∧
    (running .bits 0x4#4 0#4 .ok).req = some (.measure .high 100000#32) ∧
    (running .dstart 0x4#4 0#4 .ok).req = some (.wait .low 5000#32) := by decide

end Sys2Proof.Tests
end

section
/-!
What one step can do to the clock period: which operations keep `CP` and `CPV`, how a calibration attempt ends, and from
them that a write is one of the three of `10_state.md` rule R13.
-/

namespace Sys2Proof.Machine

/-- `CP` and `CPV` are the same in both states. -/
abbrev State.SamePeriod (s t : State) : Prop := t.cp = s.cp ∧ t.cpv = s.cpv

/-! ## The accept steps -/

theorem startRead_samePeriod (s : State) : s.SamePeriod s.startRead := by
  obtain ⟨-, h⟩ | ⟨-, h⟩ := startRead_cases s <;> exact h ▸ ⟨rfl, rfl⟩

/-- A command keeps the period, or is a `SETCP` with a legal argument and writes it (`40_config.md` R70). -/
theorem exec_period {i : Instr} {s t : State} (h : exec i s = .next t) :
    s.SamePeriod t ∨ ∃ p, i = .setcp p ∧ LegalPeriod p.toNat ∧ t.cp = p ∧ t.cpv = true := by
  cases i with
  | setcp p =>
    simp only [exec, execSetcp] at h
    split at h
    next legal =>
      cases h
      exact .inr ⟨p, rfl, legal, rfl, rfl⟩
    · cases h
      exact .inl ⟨rfl, rfl⟩
  | cal T | calauto nf T =>
    cases h
    exact .inl ⟨rfl, rfl⟩
  | read T | readarr T =>
    cases h
    exact .inl (startRead_samePeriod (s.accept _ _ _))
  | readpin idx T =>
    simp only [exec, execReadpin] at h
    split at h
    · cases h
      exact .inl ⟨rfl, rfl⟩
    · cases h
      exact .inl (startRead_samePeriod (s.accept _ _ _))

/-- The same of any command word; an illegal one keeps the period (`30_encoding.md` R54). -/
theorem acceptWord_period {w : CmdWord} {s t : State} (h : acceptWord w s = .next t) :
    s.SamePeriod t ∨ ∃ p, decode w = .ok (.setcp p) ∧ LegalPeriod p.toNat ∧ t.cp = p ∧ t.cpv = true := by
  obtain ⟨i, -, hi, hw, -⟩ | ⟨-, -, hw⟩ := acceptWord_cases w s
  · obtain same | ⟨p, rfl, written⟩ := exec_period (hw ▸ h)
    · exact .inl same
    · exact .inr ⟨p, hi, written⟩
  · cases hw.symm.trans h
    exact .inl ⟨rfl, rfl⟩

/-! ## The answer steps of a read -/

theorem readEnd_samePeriod {r : ReadResult} {s t : State} (h : readEnd r s = .next t) : s.SamePeriod t := by
  obtain ⟨st, p, -, hr⟩ | ⟨-, hr⟩ := readEnd_cases r s <;> cases hr.symm.trans h
  exact ⟨rfl, rfl⟩

theorem syncAnswer_samePeriod {ans : Answer} {s t : State} (h : syncAnswer ans s = .next t) : s.SamePeriod t := by
  cases ans with
  | timedOut => exact readEnd_samePeriod h
  | ok => cases h
  | dur d =>
    simp only [syncAnswer] at h
    split at h
    · cases h
      exact ⟨rfl, rfl⟩
    split at h
    · exact (readEnd_samePeriod h :)
    · cases h
      exact ⟨rfl, rfl⟩

theorem dstartAnswer_samePeriod {ans : Answer} {s t : State} (h : dstartAnswer ans s = .next t) : s.SamePeriod t := by
  cases ans with
  | timedOut => exact readEnd_samePeriod h
  | dur d => cases h
  | ok =>
    cases h
    exact ⟨rfl, rfl⟩

theorem bitsAnswer_samePeriod {ans : Answer} {s t : State} (h : bitsAnswer ans s = .next t) : s.SamePeriod t := by
  cases ans with
  | timedOut => exact readEnd_samePeriod h
  | ok => cases h
  | dur d =>
    simp only [bitsAnswer] at h
    split at h
    · exact readEnd_samePeriod h
    split at h
    · exact (readEnd_samePeriod h :)
    · cases h
      exact ⟨rfl, rfl⟩

/-! ## The ends of a calibration -/

/-- `KD` and `SUM` in `t` are those in `s` with an attempt counted that ended `r` without a timeout (`41_calibrate.md` R81). -/
def State.Counted (s : State) (r : Attempt) (t : State) : Prop :=
  (∃ p, r = .det p ∧ t.kd = s.kd + 1#3 ∧ t.sum = s.sum + BitVec.ofNat 35 p) ∨ (r = .indet ∧ t.kd = s.kd ∧ t.sum = s.sum)

/-- `CP` is the average of the determined periods, or `DEFAULT_CP2` where there are none (`41_calibrate.md` R84). -/
def State.PeriodIsAverage (t : State) : Prop :=
  (t.kd ≠ 0#3 ∧ t.cp = BitVec.ofNat 32 (t.sum.toNat / t.kd.toNat)) ∨
  (t.kd = 0#3 ∧ t.cp = BitVec.ofNat 32 Config.defaultCp2)

/-- From `s`, the running calibration command ends because an attempt ended `r`, and writes the period: `CAL` the one the
attempt determined (`41_calibrate.md` R79), `CALAUTO` after its fifth attempt the one of `finish` (R84). -/
def State.AttemptWrites (s : State) (r : Attempt) (t : State) : Prop :=
  t.ph = .idle ∧ t.cpv = true ∧
  ((s.opl = opcodeCal ∧ ∃ p, r = .det p ∧ t.cp = BitVec.ofNat 32 p) ∨
    (s.opl = opcodeCalauto ∧ Config.calAttempts ≤ s.a.toNat + 1 ∧ s.Counted r t ∧ t.PeriodIsAverage))

/-- `CAL` ends its attempt by keeping the period or by writing the one determined (`41_calibrate.md` R79). -/
theorem calAttemptEnd_period (s : State) (r : Attempt) :
    s.SamePeriod (s.calAttemptEnd r) ∨
    ((s.calAttemptEnd r).ph = .idle ∧ (s.calAttemptEnd r).cpv = true ∧
      (s.calAttemptEnd r).minr = s.minr ∧ (s.calAttemptEnd r).maxr = s.maxr ∧
      ∃ p, r = .det p ∧ (s.calAttemptEnd r).cp = BitVec.ofNat 32 p) := by
  cases r with
  | det p => exact .inr ⟨rfl, rfl, rfl, rfl, p, rfl, rfl⟩
  | indet | tmo => exact .inl ⟨rfl, rfl⟩

/-- `finish(KD, SUM)` in the state that holds them (`41_calibrate.md` R84). -/
def State.finish (s : State) : State :=
  s.endCalibration (finishOutcome (noFallback s.auxl) s.kd.toNat s.sum.toNat).1
    (finishOutcome (noFallback s.auxl) s.kd.toNat s.sum.toNat).2

/-- `finish` leaves the registers of the attempts alone; it keeps the period, or writes the average or the default
(`41_calibrate.md` R84). -/
theorem finish_period (s : State) :
    s.SamePeriod s.finish ∨
    (s.finish.ph = .idle ∧ s.finish.cpv = true ∧ s.finish.minr = s.minr ∧ s.finish.maxr = s.maxr ∧
      s.finish.kd = s.kd ∧ s.finish.sum = s.sum ∧ s.finish.PeriodIsAverage) := by
  unfold State.finish
  by_cases hkd : 0 < s.kd.toNat
  · have some_determined : s.kd ≠ 0#3 := fun h => by simp [h] at hkd
    rw [finishOutcome, if_pos hkd]
    exact .inr ⟨rfl, rfl, rfl, rfl, rfl, rfl, .inl ⟨some_determined, rfl⟩⟩
  · have none_determined : s.kd = 0#3 := BitVec.eq_of_toNat_eq (by simpa using hkd)
    rw [finishOutcome, if_neg hkd]
    cases noFallback s.auxl with
    | true => exact .inl ⟨rfl, rfl⟩
    | false => exact .inr ⟨rfl, rfl, rfl, rfl, rfl, rfl, .inr ⟨none_determined, rfl⟩⟩

/-- The state in which an attempt of `CALAUTO` that did not time out has been counted (`41_calibrate.md` R81). -/
def State.countAttempt (s : State) : Option Nat → State
  | some v => { s with a := s.a + 1#3, kd := s.kd + 1#3, sum := s.sum + BitVec.ofNat 35 v }
  | none => { s with a := s.a + 1#3 }

@[simp] theorem State.countAttempt_cp (s : State) (p : Option Nat) : (s.countAttempt p).cp = s.cp := by cases p <;> rfl
@[simp] theorem State.countAttempt_cpv (s : State) (p : Option Nat) : (s.countAttempt p).cpv = s.cpv := by cases p <;> rfl
@[simp] theorem State.countAttempt_minr (s : State) (p : Option Nat) : (s.countAttempt p).minr = s.minr := by cases p <;> rfl
@[simp] theorem State.countAttempt_maxr (s : State) (p : Option Nat) : (s.countAttempt p).maxr = s.maxr := by cases p <;> rfl

/-- After an attempt is counted, the next one begins or `finish` ends the command (`41_calibrate.md` R81). -/
theorem autoAttemptDone_eq (s : State) (p : Option Nat) :
    s.autoAttemptDone p =
      if (s.a + 1#3).toNat < Config.calAttempts then (s.countAttempt p).startBurst else (s.countAttempt p).finish := by
  cases p <;> rfl

/-- An attempt of `CALAUTO` that times out ends the command; any other is counted (`41_calibrate.md` R81, R82). -/
theorem autoAttemptEnd_cases (s : State) (r : Attempt) :
    s.autoAttemptEnd r = s.complete .calTimeout 0#32 ∨
    ∃ p, s.autoAttemptEnd r = s.autoAttemptDone p ∧ s.Counted r (s.countAttempt p) := by
  cases r with
  | tmo => exact .inl rfl
  | det p => exact .inr ⟨some p, rfl, .inl ⟨p, rfl, rfl, rfl⟩⟩
  | indet => exact .inr ⟨none, rfl, .inr ⟨rfl, rfl, rfl⟩⟩

/-- `CALAUTO` keeps the period at the end of an attempt, or the attempt was the fifth and `finish` writes it from the counts
(`41_calibrate.md` R81, R84). -/
theorem autoAttemptEnd_period (s : State) (r : Attempt) :
    s.SamePeriod (s.autoAttemptEnd r) ∨
    ((s.autoAttemptEnd r).ph = .idle ∧ (s.autoAttemptEnd r).cpv = true ∧
      (s.autoAttemptEnd r).minr = s.minr ∧ (s.autoAttemptEnd r).maxr = s.maxr ∧
      Config.calAttempts ≤ s.a.toNat + 1 ∧ s.Counted r (s.autoAttemptEnd r) ∧ (s.autoAttemptEnd r).PeriodIsAverage) := by
  obtain hend | ⟨p, hend, counted⟩ := autoAttemptEnd_cases s r
  · exact hend ▸ .inl ⟨rfl, rfl⟩
  rw [hend, autoAttemptDone_eq]
  split
  · exact .inl (by simp [State.SamePeriod])
  next last =>
    have fifth : Config.calAttempts ≤ s.a.toNat + 1 := (Nat.le_of_not_lt last).trans (Nat.mod_le _ _)
    obtain same | ⟨idle, valid, hmin, hmax, hkd, hsum, average⟩ := finish_period (s.countAttempt p)
    · exact .inl (by simpa [State.SamePeriod] using same)
    · have counted_at_end : s.Counted r (s.countAttempt p).finish := by
        simpa only [State.Counted, hkd, hsum] using counted
      exact .inr ⟨idle, valid, by simp [hmin], by simp [hmax], fifth, counted_at_end, average⟩

/-- The end of an attempt keeps the period or writes it by its rule, and then `MINR` and `MAXR` stay. -/
theorem attemptEnd_period {r : Attempt} {s t : State} (h : attemptEnd r s = .next t) :
    s.SamePeriod t ∨ (t.minr = s.minr ∧ t.maxr = s.maxr ∧ s.AttemptWrites r t) := by
  unfold attemptEnd at h
  split at h
  next isCal =>
    cases h
    obtain same | ⟨idle, valid, hmin, hmax, period⟩ := calAttemptEnd_period s r
    · exact .inl same
    · exact .inr ⟨hmin, hmax, idle, valid, .inl ⟨isCal, period⟩⟩
  split at h
  next isCalauto =>
    cases h
    obtain same | ⟨idle, valid, hmin, hmax, ends⟩ := autoAttemptEnd_period s r
    · exact .inl same
    · exact .inr ⟨hmin, hmax, idle, valid, .inr ⟨isCalauto, ends⟩⟩
  · cases h

/-- From `s`, a calibration writes the period at its thirteenth sample, its attempt ending as `MINR` and `MAXR` classify. -/
def State.CalibrationWrites (s t : State) : Prop :=
  Config.calSamples ≤ s.n.toNat + 1 ∧ s.AttemptWrites (classify t.minr.toNat t.maxr.toNat) t

/-- The `CALS` answer step keeps the period unless it is the thirteenth sample (`41_calibrate.md` R78). -/
theorem calsAnswer_period {ans : Answer} {s t : State} (h : calsAnswer ans s = .next t) :
    s.SamePeriod t ∨ s.CalibrationWrites t := by
  cases ans with
  | ok => cases h
  | timedOut =>
    obtain same | ⟨-, -, -, -, ⟨-, p, hp, -⟩ | ⟨-, -, ⟨p, hp, -⟩ | ⟨hp, -⟩, -⟩⟩ := attemptEnd_period h
    · exact .inl same
    · cases hp
    · cases hp
    · cases hp
  | dur d =>
    simp only [calsAnswer] at h
    split at h
    · cases h
      exact .inl ⟨rfl, rfl⟩
    next last =>
      have thirteenth : Config.calSamples ≤ s.n.toNat + 1 := (Nat.le_of_not_lt last).trans (Nat.mod_le _ _)
      obtain same | ⟨hmin, hmax, writes⟩ := attemptEnd_period h
      · exact .inl same
      · rw [← hmin, ← hmax] at writes
        exact .inr ⟨thirteenth, writes⟩

/-! ## The step -/

/-- An answer step keeps the period, or is the last of a calibration that writes it. -/
theorem answerStep_period {ans : Answer} {s t : State} (h : answerStep ans s = .next t) :
    s.SamePeriod t ∨ (s.ph = .cals ∧ s.CalibrationWrites t) := by
  unfold answerStep at h
  split at h
  · cases hp : s.ph <;> rw [hp] at h
    case idle => cases h
    case sync => exact .inl (syncAnswer_samePeriod h)
    case dstart => exact .inl (dstartAnswer_samePeriod h)
    case bits => exact .inl (bitsAnswer_samePeriod h)
    case cals => exact (calsAnswer_period h).imp_right (⟨rfl, ·⟩)
  · cases h

/-- Settles O53: every kind of step keeps the period but an accepted `SETCP` and the answer step that ends a calibration. -/
theorem periodWrittenOnlyByItsCommands : Obligations.PeriodWrittenOnlyByItsCommands := by
  intro s t noReset h
  obtain ⟨reset, -⟩ | ⟨-, -, -, hs⟩ | ⟨-, idle, valid, hs⟩ | ⟨-, -, -, hs⟩ | ⟨ans, u, -, -, taken, hs⟩ := step_cases s
  · simp [noReset] at reset
  · cases hs.symm.trans h
    exact .inl ⟨rfl, rfl⟩
  · obtain same | setcp := acceptWord_period (hs ▸ h)
    · exact .inl same
    · exact .inr (.inl ⟨idle, valid, setcp⟩)
  · cases hs.symm.trans h
    exact .inl ⟨rfl, rfl⟩
  · obtain ⟨-, -, hu, -⟩ := takeAnswer_some taken
    rw [hs, hu] at h
    obtain same | ⟨cals, thirteenth, idle, valid, ⟨isCal, period⟩ | ⟨isCalauto, fifth, counted, average⟩⟩ :=
      answerStep_period h
    · exact .inl same
    · exact .inr (.inr (.inl ⟨cals, isCal, thirteenth, idle, valid, period⟩))
    · exact .inr (.inr (.inr ⟨cals, isCalauto, thirteenth, fifth, idle, valid, counted, average⟩))

end Sys2Proof.Machine
end

section
/-!
What makes a word illegal, by the reason the decoder gives, and from it the step of an idle core that is presented one
(`30_encoding.md` rule R54).
-/

namespace Sys2Proof

/-- An opcode of no command does not decode, whatever `aux` is (`30_encoding.md` R54). -/
theorem decode_reservedOpcode {w : CmdWord} (h : opField w = 0x0#4 ∨ 0x7 ≤ (opField w).toNat) :
    decode w = .error .reservedOpcode := by
  have no_command (op : Nibble) (hlow : 0 < op.toNat) (hhigh : op.toNat < 0x7) : opField w ≠ op := by
    rintro rfl
    obtain hzero | hseven := h
    · simp [hzero] at hlow
    · omega
  simp [decode, no_command]

/-- Of the commands that need `aux` = 0, none decodes with another (`30_encoding.md` R52, R54). -/
theorem decode_illegalAux {w : CmdWord}
    (hop : opField w = 0x1#4 ∨ opField w = 0x2#4 ∨ opField w = 0x4#4 ∨ opField w = 0x6#4) (haux : auxField w ≠ 0#4) :
    decode w = .error .illegalAux := by
  obtain hop | hop | hop | hop := hop <;> simp +decide [decode, withZeroAux, hop, haux]

/-- `CALAUTO` decodes with no other `aux` than its flag in bit 0 (`30_encoding.md` R52, R54). -/
theorem decode_illegalAux_of_calauto {w : CmdWord} (hop : opField w = 0x3#4)
    (haux : (auxField w).extractLsb' 1 3 ≠ 0#3) : decode w = .error .illegalAux := by
  simp +decide [decode, hop, haux]

/-- An illegal word does not decode (`30_encoding.md` R54). -/
theorem decode_error_of_illegalWord {w : CmdWord} (h : Machine.IllegalWord w) : ∃ e, decode w = .error e := by
  obtain hop | hop | ⟨hop, haux⟩ | ⟨hop, haux⟩ := h
  · exact ⟨_, decode_reservedOpcode (.inl hop)⟩
  · exact ⟨_, decode_reservedOpcode (.inr hop)⟩
  · exact ⟨_, decode_illegalAux hop haux⟩
  · exact ⟨_, decode_illegalAux_of_calauto hop haux⟩

end Sys2Proof

namespace Sys2Proof.Machine

/-- Whether a word is illegal is a matter of `op` and `aux` alone (`30_encoding.md` R54). -/
theorem illegalWord_cmdWord_arg {op aux : Nibble} {arg : Word} (arg' : Word) (h : IllegalWord (cmdWord op aux arg)) :
    IllegalWord (cmdWord op aux arg') := by
  simpa only [IllegalWord, opField_cmdWord, auxField_cmdWord] using h

/-- The accept step of an illegal word: it is latched and completes with `IllegalCmd` (`30_encoding.md` R53, R54). -/
theorem acceptWord_of_illegalWord {w : CmdWord} (s : State) (h : IllegalWord w) :
    acceptWord w s = .next (acceptIllegal w s) := by
  obtain ⟨e, he⟩ := decode_error_of_illegalWord h
  simp [acceptWord, he]

/-- An idle core out of reset accepts the command word it is presented (`10_state.md` R15). -/
theorem step_of_command {s : State} (idle : s.ph = .idle) (noReset : s.edge.rst = false) (valid : s.edge.cmdValid = true) :
    step s = acceptWord s.edge.cmd s.tick := by
  obtain ⟨reset, -⟩ | ⟨-, -, noCommand, -⟩ | ⟨-, -, -, accepts⟩ | ⟨-, busy, -⟩ | ⟨-, -, -, busy, -⟩ := step_cases s
  · simp [noReset] at reset
  · simp [valid] at noCommand
  · exact accepts
  · exact absurd idle busy
  · exact absurd idle busy

/-- Settles O9: an illegal word does not decode, so the accept step is the latch and the completion with `IllegalCmd`. -/
theorem illegalWordOnlyReportsIllegalCmd : Obligations.IllegalWordOnlyReportsIllegalCmd := by
  refine ⟨fun s idle noReset valid illegal => ?_, fun op aux arg arg' => illegalWord_cmdWord_arg arg', .inl (by decide)⟩
  calc step s
    _ = acceptWord s.edge.cmd s.tick := step_of_command idle noReset valid
    _ = .next (acceptIllegal s.edge.cmd s.tick) := acceptWord_of_illegalWord s.tick illegal
    _ = _ := rfl

end Sys2Proof.Machine
end

section
/-!
The accept step of `SETCP` by whether its argument is a legal period (`40_config.md` rules R70 and R71).
-/

namespace Sys2Proof.Machine

/-- `SETCP` with a legal argument: latch the word, install the period, complete with it (`40_config.md` R70). -/
theorem exec_setcp_of_legalPeriod {p : Word} (s : State) (h : LegalPeriod p.toNat) :
    exec (.setcp p) s = .next (((s.accept opcodeSetcp 0#4 p).setPeriod p).complete .ok p) :=
  if_pos h

/-- `SETCP` with any other argument: latch the word and complete with `BadArg` (`40_config.md` R71). -/
theorem exec_setcp_of_not_legalPeriod {p : Word} (s : State) (h : ¬ LegalPeriod p.toNat) :
    exec (.setcp p) s = .next ((s.accept opcodeSetcp 0#4 p).complete .badArg 0#32) :=
  if_neg h

/-- Zero and the numbers above `CP2_MAX` are no legal periods (`40_config.md` R71). -/
theorem not_legalPeriod_of_bounds {n : Nat} (h : n = 0 ∨ 858993459 < n) : ¬ LegalPeriod n := by
  rintro ⟨hpos, hmax : n ≤ 858993459⟩
  omega

/-- Settles O1: the two ranges of the argument are the two branches of the accept step, each an exact next state. -/
theorem setcpInstallsLegalPeriodElseBadArg : Obligations.SetcpInstallsLegalPeriodElseBadArg := by
  refine fun s p _ => ⟨rfl, fun legal => ?_, fun illegal => ?_⟩
  · exact exec_setcp_of_legalPeriod s legal
  · exact exec_setcp_of_not_legalPeriod s (not_legalPeriod_of_bounds illegal)

end Sys2Proof.Machine
end

section
/-!
`classify` in each branch of `41_calibrate.md` rule R75, and its integer tests as bounds on the rational ratio.
-/

namespace Sys2Proof.Machine

/-- The cross-multiplied test bounds the ratio `mx / mn` itself (`41_calibrate.md` R75). -/
theorem ratioNear_iff_ratio_bounds {mn : ℕ} (r mx : ℕ) (hmn : 0 < mn) :
    RatioNear r mn mx ↔ (9 * r / 10 : ℚ) ≤ mx / mn ∧ (mx / mn : ℚ) ≤ 11 * r / 10 := by
  have hmn' : (0 : ℚ) < mn := Nat.cast_pos.mpr hmn
  have lower : 9 * r * mn ≤ 10 * mx ↔ (9 * r / 10 : ℚ) ≤ mx / mn := by
    rw [le_div_iff₀ hmn', div_mul_eq_mul_div, div_le_iff₀' (by norm_num)]
    exact_mod_cast Iff.rfl
  have upper : 10 * mx ≤ 11 * r * mn ↔ (mx / mn : ℚ) ≤ 11 * r / 10 := by
    rw [div_le_iff₀ hmn', div_mul_eq_mul_div, le_div_iff₀' (by norm_num)]
    exact_mod_cast Iff.rfl
  exact and_congr lower upper

/-- No ratio is near both 36 and 18. -/
theorem not_ratioNear_full_of_half {mn mx : Nat} (hmn : 0 < mn) (half : RatioNear Config.calRatioHalf mn mx) :
    ¬ RatioNear Config.calRatioFull mn mx := by
  simp only [RatioNear, Config.calRatioFull, Config.calRatioHalf] at half ⊢
  omega

@[simp] theorem classify_zero (mx : Nat) : classify 0 mx = .indet := rfl

theorem classify_of_full {mn mx : Nat} (hmn : 0 < mn) (full : RatioNear Config.calRatioFull mn mx) :
    classify mn mx = .det (2 * mn) := by
  rw [classify, if_neg hmn.ne', if_pos full]

theorem classify_of_half {mn mx : Nat} (hmn : 0 < mn) (half : RatioNear Config.calRatioHalf mn mx) :
    classify mn mx = .det mn := by
  rw [classify, if_neg hmn.ne', if_neg (not_ratioNear_full_of_half hmn half), if_pos half]

theorem classify_of_neither {mn mx : Nat} (notFull : ¬ RatioNear Config.calRatioFull mn mx)
    (notHalf : ¬ RatioNear Config.calRatioHalf mn mx) : classify mn mx = .indet := by
  rw [classify, if_neg notFull, if_neg notHalf, ite_self]

/-- The two ways a burst determines a period (`41_calibrate.md` R75). -/
theorem classify_det_cases {mn mx p : Nat} (h : classify mn mx = .det p) :
    0 < mn ∧ ((p = 2 * mn ∧ RatioNear Config.calRatioFull mn mx) ∨ (p = mn ∧ RatioNear Config.calRatioHalf mn mx)) := by
  obtain rfl | hmn := mn.eq_zero_or_pos
  · cases h
  by_cases full : RatioNear Config.calRatioFull mn mx
  · cases (classify_of_full hmn full).symm.trans h
    exact ⟨hmn, .inl ⟨rfl, full⟩⟩
  by_cases half : RatioNear Config.calRatioHalf mn mx
  · cases (classify_of_half hmn half).symm.trans h
    exact ⟨hmn, .inr ⟨rfl, half⟩⟩
  · cases (classify_of_neither full half).symm.trans h

/-- A period determined from 32-bit durations is positive and at most `(2^32 - 1) * 10 / 162`, rounded down
(`41_calibrate.md` R85). -/
theorem classify_det_bounds {mn mx p : Nat} (hmx : mx < 2 ^ 32) (h : classify mn mx = .det p) : 1 ≤ p ∧ p ≤ 265121437 := by
  obtain ⟨hmn, ⟨rfl, lower, -⟩ | ⟨rfl, lower, -⟩⟩ := classify_det_cases h
  · simp only [Config.calRatioFull] at lower
    omega
  · simp only [Config.calRatioHalf] at lower
    omega

/-- Settles O30: each integer test is its two bounds on the ratio, and `classify` goes by the tests. -/
theorem classifyIsTheRatioTest : Obligations.ClassifyIsTheRatioTest := by
  refine fun mn mx _ => ⟨?_, fun ratio hmn hratio => ?_, fun p => classify_det_bounds⟩
  · rintro rfl
    exact classify_zero mx
  subst hratio
  have full : RatioNear Config.calRatioFull mn mx ↔ (324 / 10 : ℚ) ≤ mx / mn ∧ (mx / mn : ℚ) ≤ 396 / 10 := by
    rw [ratioNear_iff_ratio_bounds _ _ hmn]
    norm_num
  have half : RatioNear Config.calRatioHalf mn mx ↔ (162 / 10 : ℚ) ≤ mx / mn ∧ (mx / mn : ℚ) ≤ 198 / 10 := by
    rw [ratioNear_iff_ratio_bounds _ _ hmn]
    norm_num
  rw [← full, ← half]
  exact ⟨fun lower upper => classify_of_full hmn (full.mpr ⟨lower, upper⟩),
    fun lower upper => classify_of_half hmn (half.mpr ⟨lower, upper⟩), classify_of_neither⟩

end Sys2Proof.Machine
end

section
/-!
The step of a busy core whose answer is present, in any phase, and the `CALS` answer step by the count of samples
(`41_calibrate.md` rule R78).
-/

namespace Sys2Proof.Machine

/-- The edge and the answer, once taken, leave the registers of the block as they were. -/
theorem answered_eq {s t : State} {ans : Answer} (h : s.Answered ans t) :
    t = { s with inputs := t.inputs, edges := t.edges, ref := t.ref } := by
  obtain ⟨-, -, rfl⟩ | ⟨p, r, -, -, -, -, rfl⟩ := h <;> rfl

/-- The line of the reference source stands still while a request is outstanding (`20_memory.md` R44). -/
theorem passTime_of_busy {s : State} {e : Edge} {r : Request} (hreq : s.req = some r) (noReset : e.rst = false) :
    s.passTime e = s.ref := by
  cases href : s.ref <;> simp [State.passTime, href, hreq, noReset]

/-- A busy core takes the answer present at the edge in the answer step of its phase, where the answer fits the request
(`10_state.md` R16, `20_memory.md` R32). -/
theorem step_of_answered {s t : State} {ans : Answer} {r : Request} (busy : s.ph ≠ .idle) (hreq : s.req = some r)
    (answered : s.Answered ans t)
    (fits : (∃ l T, r = .wait l T ∧ (ans = .timedOut ∨ ans = .ok)) ∨
      (∃ l T, r = .measure l T ∧ (ans = .timedOut ∨ ∃ d, ans = .dur d))) :
    step s = answerStep ans t := by
  have taken : s.edge.rst = false ∧ s.tick.takeAnswer s.edge = some (ans, t) := by
    obtain ⟨href, carries, rfl⟩ | ⟨p, r', href, hreq', noReset, rfl, rfl⟩ := answered
    · have href' : s.tick.ref = none := (passTime_of_busy hreq carries.rst).trans href
      exact ⟨carries.rst, takeAnswer_of_carries hreq href' carries fits⟩
    · have href' : s.tick.ref = some p := (passTime_of_busy hreq noReset).trans href
      exact ⟨noReset, takeAnswer_of_ref s.edge hreq' href'⟩
  obtain ⟨noReset, taken⟩ := taken
  obtain ⟨reset, -⟩ | ⟨-, idle, -⟩ | ⟨-, idle, -⟩ | ⟨-, -, none_taken, -⟩ | ⟨ans', t', -, -, taken', hstep⟩ := step_cases s
  · simp [noReset] at reset
  · exact absurd idle busy
  · exact absurd idle busy
  · cases none_taken.symm.trans taken
  · cases taken'.symm.trans taken
    exact hstep

/-- In `CALS` with its request outstanding, the answer step is the one of `41_calibrate.md` R78. -/
theorem answerStep_of_cals {s : State} (ans : Answer) (cals : s.ph = .cals) (hreq : s.req = some (.measure .low s.tl)) :
    answerStep ans s = calsAnswer ans s := by
  have request : s.req = s.phaseRequest := by simp [State.phaseRequest, cals, hreq]
  rw [answerStep, if_pos request, cals]

/-- The step that takes an answer in `CALS`. -/
theorem step_of_answered_cals {s t : State} {ans : Answer} (cals : s.ph = .cals) (hreq : s.req = some (.measure .low s.tl))
    (answered : s.Answered ans t) (kind : ans = .timedOut ∨ ∃ d, ans = .dur d) : step s = calsAnswer ans t := by
  have busy : s.ph ≠ .idle := by simp [cals]
  rw [step_of_answered busy hreq answered (.inr ⟨_, _, rfl, kind⟩)]
  apply answerStep_of_cals ans <;> rw [answered_eq answered]
  · exact cals
  · exact hreq

/-- A recorded sample, its least and greatest durations given as numbers (`41_calibrate.md` R78). -/
theorem recordSample_eq {s : State} {d mn mx : Word}
    (hmn : mn.toNat = if s.n = 0#4 then d.toNat else min s.minr.toNat d.toNat)
    (hmx : mx.toNat = if s.n = 0#4 then d.toNat else max s.maxr.toNat d.toNat) :
    s.recordSample d = { s with minr := mn, maxr := mx, n := s.n + 1#4 } := by
  have least : (s.recordSample d).minr = mn := by
    apply BitVec.eq_of_toNat_eq
    simp only [State.recordSample, hmn]
    split_ifs <;> omega
  have greatest : (s.recordSample d).maxr = mx := by
    apply BitVec.eq_of_toNat_eq
    simp only [State.recordSample, hmx]
    split_ifs <;> omega
  rw [← least, ← greatest]
  rfl

/-- The count after a recorded sample, which the four bits of `N` hold. -/
theorem recordSample_n_toNat {s : State} (d : Word) (hn : s.n.toNat + 1 ≤ 13) :
    (s.recordSample d).n.toNat = s.n.toNat + 1 :=
  BitVec.toNat_add_of_lt (by simp only [BitVec.toNat_ofNat]; omega)

/-- Below thirteen samples the next low pulse is requested (`41_calibrate.md` R78). -/
theorem calsAnswer_of_more_samples {s : State} (d : Word) (hn : s.n.toNat + 1 < 13) :
    calsAnswer (.dur d) s = .next ((s.recordSample d).issue (.measure .low s.tl)) := by
  rw [calsAnswer, if_pos (by rw [recordSample_n_toNat d hn.le]; exact hn)]
  rfl

/-- The thirteenth sample ends the attempt (`41_calibrate.md` R78). -/
theorem calsAnswer_of_last_sample {s : State} (d : Word) (hn : s.n.toNat + 1 = 13) :
    calsAnswer (.dur d) s =
      attemptEnd (classify (s.recordSample d).minr.toNat (s.recordSample d).maxr.toNat) (s.recordSample d) := by
  rw [calsAnswer, if_neg (by rw [recordSample_n_toNat d hn.le, hn]; decide)]

/-- Settles O19: the step is `calsAnswer` of the state that took the answer, which holds the registers of `s`. -/
theorem calibrationAnswerStep : Obligations.CalibrationAnswerStep := by
  refine fun s t ans cals hreq answered => ⟨?_, ?_⟩
  · rintro rfl
    exact step_of_answered_cals cals hreq answered (.inl rfl)
  rintro d mn mx rfl hmn hmx
  have hstep := step_of_answered_cals cals hreq answered (.inr ⟨d, rfl⟩)
  have ht := answered_eq answered
  have hn : t.n = s.n := by rw [ht]
  have hminr : t.minr = s.minr := by rw [ht]
  have hmaxr : t.maxr = s.maxr := by rw [ht]
  have htl : t.tl = s.tl := by rw [ht]
  rw [← hn, ← hminr] at hmn
  rw [← hn, ← hmaxr] at hmx
  rw [hstep, ← hn, ← htl]
  refine ⟨fun more => ?_, fun last => ?_⟩
  · rw [calsAnswer_of_more_samples d more, recordSample_eq hmn hmx]
    rfl
  · rw [calsAnswer_of_last_sample d last, recordSample_eq hmn hmx]

end Sys2Proof.Machine
end

section
/-!
`attemptEnd` for each calibration command (`41_calibrate.md` rules R79, R81 and R82).
-/

namespace Sys2Proof.Machine

theorem attemptEnd_of_cal {s : State} (r : Attempt) (h : s.opl = opcodeCal) :
    attemptEnd r s = .next (s.calAttemptEnd r) :=
  if_pos h

theorem attemptEnd_of_calauto {s : State} (r : Attempt) (h : s.opl = opcodeCalauto) :
    attemptEnd r s = .next (s.autoAttemptEnd r) := by
  have notCal : s.opl ≠ opcodeCal := by rw [h]; decide
  rw [attemptEnd, if_neg notCal, if_pos h]

/-- Settles O20: `attemptEnd` is the one of `CAL`, and each outcome completes with its status. -/
theorem calAttemptEnd : Obligations.CalAttemptEnd :=
  fun _ isCal => ⟨fun p => attemptEnd_of_cal (.det p) isCal, attemptEnd_of_cal .indet isCal, attemptEnd_of_cal .tmo isCal⟩

/-- The count of attempts, below its end, does not overflow the three bits of `A`. -/
theorem attemptCount_toNat {s : State} (h : s.a.toNat + 1 ≤ 5) : (s.a + 1#3).toNat = s.a.toNat + 1 :=
  BitVec.toNat_add_of_lt (by simp only [BitVec.toNat_ofNat]; omega)

/-- Before the fifth attempt the next one begins (`41_calibrate.md` R81). -/
theorem autoAttemptDone_of_more {s : State} (p : Option Nat) (h : s.a.toNat + 1 < 5) :
    s.autoAttemptDone p = (s.countAttempt p).startBurst := by
  rw [autoAttemptDone_eq, if_pos (by rw [attemptCount_toNat h.le]; exact h)]

/-- The fifth attempt ends with `finish` (`41_calibrate.md` R81). -/
theorem autoAttemptDone_of_fifth {s : State} (p : Option Nat) (h : s.a.toNat + 1 = 5) :
    s.autoAttemptDone p = (s.countAttempt p).finish := by
  rw [autoAttemptDone_eq, if_neg (by rw [attemptCount_toNat h.le, h]; decide)]

/-- `KD` and `SUM` after a determination, as numbers, where their bits hold them. -/
theorem countAttempt_some_kd_toNat {s : State} (p : Nat) (h : s.kd.toNat < 5) :
    (s.countAttempt (some p)).kd.toNat = s.kd.toNat + 1 :=
  BitVec.toNat_add_of_lt (by simp only [BitVec.toNat_ofNat]; omega)

theorem countAttempt_some_sum_toNat {s : State} {p : Nat} (h : s.sum.toNat + p < 2 ^ 35) :
    (s.countAttempt (some p)).sum.toNat = s.sum.toNat + p := by
  have hp : (BitVec.ofNat 35 p).toNat = p := (BitVec.toNat_ofNat p 35).trans (Nat.mod_eq_of_lt (by omega))
  exact (BitVec.toNat_add_of_lt (by rw [hp]; exact h)).trans (by rw [hp])

/-- Settles O21: an attempt that did not time out is counted; then the next burst begins, or the fifth ends with `finish` of
the counted `KD` and `SUM`. -/
theorem calautoAttemptEnd : Obligations.CalautoAttemptEnd := by
  intro s isCalauto
  have det (p : Nat) : attemptEnd (.det p) s = .next (s.autoAttemptDone (some p)) := attemptEnd_of_calauto _ isCalauto
  have indet : attemptEnd .indet s = .next (s.autoAttemptDone none) := attemptEnd_of_calauto _ isCalauto
  refine ⟨attemptEnd_of_calauto .tmo isCalauto, fun more => ⟨fun p => ?_, ?_⟩, fun fifth => ⟨fun p hkd hsum => ?_, ?_⟩⟩
  · rw [det, autoAttemptDone_of_more _ more]
    rfl
  · rw [indet, autoAttemptDone_of_more _ more]
    rfl
  · rw [det, autoAttemptDone_of_fifth _ fifth, State.finish, countAttempt_some_kd_toNat p hkd,
      countAttempt_some_sum_toNat hsum]
    rfl
  · rw [indet, autoAttemptDone_of_fifth _ fifth]
    rfl

end Sys2Proof.Machine
end

section
/-!
The three windows of a read as closed intervals of rationals (`42_read.md` rules R90 to R93).
-/

namespace Sys2Proof.Machine

/-- The undivided test is the interval from `m * lower` to `m * upper`, with `lower` and `upper` as fractions of the period
`c / 2` (`42_read.md` R90). -/
theorem inWindow_iff_rational_interval (m c d : ℕ) :
    InWindow m c d ↔ (m * (8 / 10 * (c / 2)) : ℚ) ≤ d ∧ (d : ℚ) ≤ m * (12 / 10 * (c / 2)) := by
  have lower : m * (2 * c) ≤ 5 * d ↔ (m * (8 / 10 * (c / 2)) : ℚ) ≤ d := by
    rw [← Nat.cast_le (α := ℚ)]
    push_cast
    constructor <;> intro h <;> linarith
  have upper : 5 * d ≤ m * (3 * c) ↔ (d : ℚ) ≤ m * (12 / 10 * (c / 2)) := by
    rw [← Nat.cast_le (α := ℚ)]
    push_cast
    constructor <;> intro h <;> linarith
  exact and_congr lower upper

/-- Settles O28: each window is the interval of its multiple, and the test of `ONE` has multiple 1. -/
theorem windowsAreTheExactIntervals : Obligations.WindowsAreTheExactIntervals := by
  rintro c d _ _ _ rfl rfl rfl
  have one := inWindow_iff_rational_interval 1 c d
  rw [Nat.cast_one, one_mul, one_mul] at one
  have test : OneWindow c d ↔ 2 * c ≤ 5 * d ∧ 5 * d ≤ 3 * c := by simp only [OneWindow, InWindow, one_mul]
  exact ⟨one.symm.trans test, one, inWindow_iff_rational_interval 2 c d, inWindow_iff_rational_interval 36 c d⟩

end Sys2Proof.Machine
end

section
/-!
`readEnd` for `READ` (`42_read.md` rule R101).
-/

namespace Sys2Proof.Machine

/-- For `READ`, the end of a read completes with what `READ` reports. -/
theorem readEnd_of_read {s : State} (r : ReadResult) (isRead : s.opl = opcodeRead) :
    readEnd r s = .next (s.complete (readReport r).1 (readReport r).2) := by
  rw [readEnd, State.report, if_pos isRead]

/-- Settles O23: `readEnd` is the one of `READ`, and each result of the decode completes with its status. -/
theorem readReportsWordOrFailure : Obligations.ReadReportsWordOrFailure := by
  refine fun s isRead => ⟨fun w => ?_, readEnd_of_read _ isRead, readEnd_of_read _ isRead, readEnd_of_read _ isRead⟩
  have widened : 0#20 ++ w = w.setWidth 32 := (BitVec.setWidth_eq_append (by decide)).symm
  rw [widened]
  exact readEnd_of_read (.ok w) isRead

end Sys2Proof.Machine
end

section
/-!
The step that takes an answer in each phase of a read: `SYNC` (`42_read.md` rule R95), `DSTART` (R97) and `BITS` (R98).
-/

namespace Sys2Proof.Machine

/-! ## The step in a phase of a read -/

/-- The state with the answer taken is the same state in another outside world. -/
theorem answered_exists_world {s t : State} {ans : Answer} (h : s.Answered ans t) :
    ∃ inputs edges ref, t = { s with inputs := inputs, edges := edges, ref := ref } :=
  ⟨_, _, _, answered_eq h⟩

/-- A request that was the one of its phase still is, once its answer is taken. -/
theorem answered_request {s t : State} {ans : Answer} (h : s.Answered ans t) (request : s.req = s.phaseRequest) :
    t.req = t.phaseRequest := by
  obtain ⟨inputs, edges, ref, rfl⟩ := answered_exists_world h
  exact request

theorem answered_ph {s t : State} {ans : Answer} (h : s.Answered ans t) : t.ph = s.ph := by
  rw [answered_eq h]

theorem phaseRequest_of_sync {s : State} (sync : s.ph = .sync) : s.phaseRequest = some (.measure .low s.tl) := by
  rw [State.phaseRequest, sync]

theorem phaseRequest_of_dstart {s : State} (dstart : s.ph = .dstart) :
    s.phaseRequest = some (.wait .low (dataStartTimeout s.cpl)) := by
  rw [State.phaseRequest, dstart]

theorem phaseRequest_of_bits {s : State} (bits : s.ph = .bits) : s.phaseRequest = some (.measure .high s.tl) := by
  rw [State.phaseRequest, bits]

/-- With the request of its phase outstanding, a read's answer step is the one of the phase (`10_state.md` R16). -/
theorem answerStep_of_readPhase {s : State} (ans : Answer) (request : s.req = s.phaseRequest) :
    (s.ph = .sync → answerStep ans s = syncAnswer ans s) ∧
    (s.ph = .dstart → answerStep ans s = dstartAnswer ans s) ∧
    (s.ph = .bits → answerStep ans s = bitsAnswer ans s) := by
  rw [answerStep, if_pos request]
  refine ⟨?_, ?_, ?_⟩ <;> intro phase <;> rw [phase]

section
variable {s t : State} {ans : Answer}

theorem step_of_answered_sync (sync : s.ph = .sync) (hreq : s.req = some (.measure .low s.tl)) (answered : s.Answered ans t)
    (kind : ans = .timedOut ∨ ∃ d, ans = .dur d) : step s = syncAnswer ans t := by
  rw [step_of_answered (by simp [sync]) hreq answered (.inr ⟨_, _, rfl, kind⟩)]
  have request := answered_request answered (hreq.trans (phaseRequest_of_sync sync).symm)
  exact (answerStep_of_readPhase ans request).1 ((answered_ph answered).trans sync)

theorem step_of_answered_dstart (dstart : s.ph = .dstart) (hreq : s.req = some (.wait .low (dataStartTimeout s.cpl)))
    (answered : s.Answered ans t) (kind : ans = .timedOut ∨ ans = .ok) : step s = dstartAnswer ans t := by
  rw [step_of_answered (by simp [dstart]) hreq answered (.inl ⟨_, _, rfl, kind⟩)]
  have request := answered_request answered (hreq.trans (phaseRequest_of_dstart dstart).symm)
  exact (answerStep_of_readPhase ans request).2.1 ((answered_ph answered).trans dstart)

theorem step_of_answered_bits (bits : s.ph = .bits) (hreq : s.req = some (.measure .high s.tl))
    (answered : s.Answered ans t) (kind : ans = .timedOut ∨ ∃ d, ans = .dur d) : step s = bitsAnswer ans t := by
  rw [step_of_answered (by simp [bits]) hreq answered (.inr ⟨_, _, rfl, kind⟩)]
  have request := answered_request answered (hreq.trans (phaseRequest_of_bits bits).symm)
  exact (answerStep_of_readPhase ans request).2.2 ((answered_ph answered).trans bits)

end

/-! ## `SYNC` -/

/-- A count of pulses or bits, up to thirteen, does not overflow the four bits of `N` or `K`. -/
theorem count_toNat {n : BitVec 4} (h : n.toNat + 1 ≤ 13) : (n + 1#4).toNat = n.toNat + 1 :=
  BitVec.toNat_add_of_lt (by simp only [BitVec.toNat_ofNat]; omega)

/-- A sync pulse starts the wait for data, whatever its count. -/
theorem syncAnswer_of_window {s : State} {d : Word} (window : SyncWindow s.cpl.toNat d.toNat) :
    syncAnswer (.dur d) s =
      .next { s with n := s.n + 1#4, ph := .dstart, req := some (.wait .low (dataStartTimeout s.cpl)) } :=
  if_pos window

theorem syncAnswer_of_thirteenth {s : State} {d : Word} (outside : ¬ SyncWindow s.cpl.toNat d.toNat)
    (thirteenth : s.n.toNat + 1 = 13) :
    syncAnswer (.dur d) s = readEnd .timeoutWaitingForSync { s with n := s.n + 1#4 } :=
  (if_neg outside).trans (if_pos ((count_toNat thirteenth.le).trans thirteenth))

theorem syncAnswer_of_earlier {s : State} {d : Word} (outside : ¬ SyncWindow s.cpl.toNat d.toNat)
    (earlier : s.n.toNat + 1 < 13) :
    syncAnswer (.dur d) s = .next { s with n := s.n + 1#4, req := some (.measure .low s.tl) } :=
  (if_neg outside).trans (if_neg (((count_toNat earlier.le).trans_lt earlier).ne))

/-- Settles O16: the step is `syncAnswer` of the state that took the answer, which tests the window before the count. -/
theorem syncAnswerStep : Obligations.SyncAnswerStep := by
  refine fun s t ans sync hreq answered => ⟨?_, ?_⟩
  · rintro rfl
    exact step_of_answered_sync sync hreq answered (.inl rfl)
  rintro d rfl
  have hstep := step_of_answered_sync sync hreq answered (.inr ⟨d, rfl⟩)
  obtain ⟨inputs, edges, ref, rfl⟩ := answered_exists_world answered
  exact ⟨fun window => hstep.trans (syncAnswer_of_window window),
    fun outside thirteenth => hstep.trans (syncAnswer_of_thirteenth outside thirteenth),
    fun outside earlier => hstep.trans (syncAnswer_of_earlier outside earlier)⟩

/-! ## `DSTART` -/

/-- Settles O17: the step is `dstartAnswer` of the state that took the answer, for either kind of answer to a `WAIT`. -/
theorem dataStartAnswerStep : Obligations.DataStartAnswerStep := by
  refine fun s t ans dstart hreq answered => ⟨?_, ?_⟩
  · rintro rfl
    exact step_of_answered_dstart dstart hreq answered (.inl rfl)
  · rintro rfl
    have hstep := step_of_answered_dstart dstart hreq answered (.inr rfl)
    obtain ⟨inputs, edges, ref, rfl⟩ := answered_exists_world answered
    exact hstep

/-! ## `BITS` -/

/-- A duration outside both windows is no bit. -/
theorem bitOf_of_neither {c d : Nat} (notOne : ¬ OneWindow c d) (notZero : ¬ ZeroWindow c d) : bitOf c d = none := by
  rw [bitOf, if_neg notOne, if_neg notZero]

/-- A duration in `ONE` is the bit 1, one in `ZERO` alone the bit 0, as the accumulator takes them (`42_read.md` R98). -/
theorem bitOf_of_window {c d : Nat} {b : DataWord}
    (h : (OneWindow c d ∧ b = 1#12) ∨ (¬ OneWindow c d ∧ ZeroWindow c d ∧ b = 0#12)) :
    ∃ bit, bitOf c d = some bit ∧ ∀ acc : DataWord, (acc <<< 1) ||| b = shiftIn acc bit := by
  obtain ⟨one, rfl⟩ | ⟨notOne, zero, rfl⟩ := h
  · exact ⟨true, if_pos one, fun _ => rfl⟩
  · exact ⟨false, (if_neg notOne).trans (if_pos zero), fun _ => rfl⟩

theorem bitsAnswer_of_no_bit {s : State} {d : Word} (noBit : bitOf s.cpl.toNat d.toNat = none) :
    bitsAnswer (.dur d) s = readEnd .malformedDataPulse s := by
  simp only [bitsAnswer, noBit]

/-- The twelfth bit ends the read with the word. -/
theorem bitsAnswer_of_last_bit {s : State} {d : Word} {bit : Bool} (hbit : bitOf s.cpl.toNat d.toNat = some bit)
    (last : s.k.toNat + 1 = 12) :
    bitsAnswer (.dur d) s = readEnd (.ok (shiftIn s.acc bit)) { s with acc := shiftIn s.acc bit, k := s.k + 1#4 } := by
  simp only [bitsAnswer, hbit]
  exact if_pos ((count_toNat (by omega)).trans last)

/-- After an earlier bit the next high pulse is requested. -/
theorem bitsAnswer_of_more_bits {s : State} {d : Word} {bit : Bool} (hbit : bitOf s.cpl.toNat d.toNat = some bit)
    (more : s.k.toNat + 1 < 12) :
    bitsAnswer (.dur d) s =
      .next { s with acc := shiftIn s.acc bit, k := s.k + 1#4, req := some (.measure .high s.tl) } := by
  simp only [bitsAnswer, hbit]
  exact if_neg ((count_toNat (by omega)).trans_lt more).ne

/-- Settles O18: the step is `bitsAnswer` of the state that took the answer, which goes by the bit of the duration and then
by its count. -/
theorem bitsAnswerStep : Obligations.BitsAnswerStep := by
  refine fun s t ans bits hreq answered => ⟨?_, ?_⟩
  · rintro rfl
    exact step_of_answered_bits bits hreq answered (.inl rfl)
  rintro d rfl
  have hstep := step_of_answered_bits bits hreq answered (.inr ⟨d, rfl⟩)
  obtain ⟨inputs, edges, ref, rfl⟩ := answered_exists_world answered
  refine ⟨fun notOne notZero => hstep.trans (bitsAnswer_of_no_bit (bitOf_of_neither notOne notZero)), fun b window => ?_⟩
  obtain ⟨bit, hbit, hshift⟩ := bitOf_of_window window
  rw [hshift]
  exact ⟨fun last => hstep.trans (bitsAnswer_of_last_bit hbit last),
    fun more => hstep.trans (bitsAnswer_of_more_bits hbit more)⟩

end Sys2Proof.Machine
end

section
/-!
The accept step of `READPIN` with an index above 11 (`43_accessors.md` rule R111).
-/

namespace Sys2Proof.Machine

/-- `READPIN` with an index above 11: latch the word and complete with `OutOfRange`, whatever `CPV` is
(`43_accessors.md` R111). -/
theorem exec_readpin_of_out_of_range {idx : Nat} (s : State) (t : Word) (h : 11 < idx) :
    exec (.readpin idx t) s =
      .next ((s.accept opcodeReadpin (BitVec.ofNat 4 idx) t).complete .outOfRange 0#32) :=
  if_pos h

/-- Settles O6: every index from 12 on is in the out-of-range branch of the accept step, which tests `idx` before `CPV`. -/
theorem readpinBeyondElevenIsOutOfRange : Obligations.ReadpinBeyondElevenIsOutOfRange :=
  fun s _ t _ above _ => exec_readpin_of_out_of_range s t above

end Sys2Proof.Machine
end

section
/-!
`readEnd` for `READPIN` (`43_accessors.md` rules R110, R112) and for `READARR` (R113, R114), and the payload of `READARR`
bit by bit.
-/

namespace Sys2Proof.Machine

/-! ## `READPIN` -/

/-- For `READPIN`, the end of a read completes with what `READPIN` reports of the latched index. -/
theorem readEnd_of_readpin {s : State} (r : ReadResult) (isReadpin : s.opl = opcodeReadpin) :
    readEnd r s =
      .next (s.complete (readpinReport s.auxl.toNat r).1 (readpinReport s.auxl.toNat r).2) := by
  have notRead : s.opl ≠ opcodeRead := by rw [isReadpin]; decide
  rw [readEnd, State.report, if_neg notRead, if_pos isReadpin]

/-- `READPIN` does not tell the three failures apart (`43_accessors.md` R112). -/
theorem readpinReport_of_failure {r : ReadResult} (idx : Nat) (failed : ∀ w, r ≠ .ok w) :
    readpinReport idx r = (.readError, 0#32) := by
  cases r with
  | ok w => exact absurd rfl (failed w)
  | timeoutWaitingForSync | syncLostAfterPreamble | malformedDataPulse => rfl

/-- Settles O24: `readEnd` is the one of `READPIN`, which reports the pin of a word and one status for all failures. -/
theorem readpinReportsBitOrReadError : Obligations.ReadpinReportsBitOrReadError := by
  refine fun s isReadpin => ⟨fun w => readEnd_of_readpin (.ok w) isReadpin, fun r failed => ?_⟩
  rw [readEnd_of_readpin r isReadpin, readpinReport_of_failure _ failed]
  rfl

/-! ## `READARR` -/

/-- For `READARR`, the end of a read completes with what `READARR` reports. -/
theorem readEnd_of_readarr {s : State} (r : ReadResult) (isReadarr : s.opl = opcodeReadarr) :
    readEnd r s = .next (s.complete (readarrReport r).1 (readarrReport r).2) := by
  have notRead : s.opl ≠ opcodeRead := by rw [isReadarr]; decide
  have notReadpin : s.opl ≠ opcodeReadpin := by rw [isReadarr]; decide
  rw [readEnd, State.report, if_neg notRead, if_neg notReadpin, if_pos isReadarr]

/-- `READARR` does not tell the three failures apart (`43_accessors.md` R114). -/
theorem readarrReport_of_failure {r : ReadResult} (failed : ∀ w, r ≠ .ok w) : readarrReport r = (.noData, 0#32) := by
  cases r with
  | ok w => exact absurd rfl (failed w)
  | timeoutWaitingForSync | syncLostAfterPreamble | malformedDataPulse => rfl

/-- Bit `j` of a packed sequence is its element `j`, and 0 beyond its end (`43_accessors.md` R113). -/
theorem getLsbD_packBits (bs : List Bool) (j : Nat) :
    (packBits bs).getLsbD j = (decide (j < 32) && bs.getD j false) := by
  induction bs generalizing j with
  | nil => simp [packBits]
  | cons b bs ih =>
    cases j with
    | zero => cases b <;> simp [packBits]
    | succ j =>
      have high : (if b then 1#32 else 0#32).getLsbD (j + 1) = false := by cases b <;> simp [BitVec.getLsbD_one]
      rw [packBits, BitVec.getLsbD_or, high, Bool.or_false, BitVec.getLsbD_shiftLeft, Nat.add_sub_cancel, ih,
        List.getD_cons_succ]
      by_cases inWord : j + 1 < 32
      · simp [inWord, Nat.lt_of_succ_lt inWord]
      · simp [inWord]

/-- The twelve elements of the array run through the word from its top bit down (`10_state.md` R22). -/
theorem arrayOf_eq_map_range (w : DataWord) : arrayOf w = (List.range 12).map fun j => w.getLsbD (11 - j) := rfl

/-- Element `j` of the array, with 0 beyond its end. -/
theorem getD_arrayOf (w : DataWord) (j : Nat) : (arrayOf w).getD j false = (decide (j < 12) && w.getLsbD (11 - j)) := by
  rw [arrayOf_eq_map_range]
  by_cases inArray : j < 12
  · simp [inArray]
  · rw [List.getD_eq_default _ _ (by simpa using inArray)]
    simp [inArray]

/-- The payload of `READARR`: the first received bit on bit 0 (`43_accessors.md` R113). -/
theorem getLsbD_packBits_arrayOf (w : DataWord) (j : Nat) :
    (packBits (arrayOf w)).getLsbD j = (decide (j < 12) && w.getLsbD (11 - j)) := by
  rw [getLsbD_packBits, getD_arrayOf]
  by_cases inArray : j < 12
  · simp [inArray, inArray.trans (show 12 < 32 by decide)]
  · simp [inArray]

/-- Settles O25: `readEnd` is the one of `READARR`, which reports the packed array of a word and one status for all
failures. -/
theorem readarrReportsArrayOrNoData : Obligations.ReadarrReportsArrayOrNoData := by
  refine fun s isReadarr => ⟨fun w => ?_, fun r failed => ?_⟩
  · exact ⟨packBits (arrayOf w), getLsbD_packBits_arrayOf w, readEnd_of_readarr (.ok w) isReadarr⟩
  · rw [readEnd_of_readarr r isReadarr, readarrReport_of_failure failed]
    rfl

end Sys2Proof.Machine
end

section
/-!
The words of the commands that can complete in their accept step, and the accept step of a read command while no period is
installed: the order of the tests of `60_exceptions.md` rule R124.
-/

namespace Sys2Proof

/-! ## The decoded command -/

section
variable {w : CmdWord}

theorem decode_of_setcp (hop : opField w = 0x1#4) (haux : auxField w = 0#4) : decode w = .ok (.setcp (argField w)) := by
  rw [decode, if_pos hop, withZeroAux, if_pos haux]

theorem decode_of_read (hop : opField w = 0x4#4) (haux : auxField w = 0#4) : decode w = .ok (.read (argField w)) := by
  simp +decide [decode, withZeroAux, hop, haux]

theorem decode_of_readpin (hop : opField w = 0x5#4) : decode w = .ok (.readpin (auxField w).toNat (argField w)) := by
  simp +decide [decode, hop]

theorem decode_of_readarr (hop : opField w = 0x6#4) (haux : auxField w = 0#4) : decode w = .ok (.readarr (argField w)) := by
  simp +decide [decode, withZeroAux, hop, haux]

end

end Sys2Proof

namespace Sys2Proof.Machine

/-- A legal word of a command that needs `aux` = 0 has it (`30_encoding.md` R52, R54). -/
theorem auxField_of_legal {w : CmdWord} (legal : ¬ IllegalWord w)
    (hop : opField w = 0x1#4 ∨ opField w = 0x2#4 ∨ opField w = 0x4#4 ∨ opField w = 0x6#4) : auxField w = 0#4 :=
  by_contra fun haux => legal (.inr (.inr (.inl ⟨hop, haux⟩)))

/-- The accept step of a word that decodes is the one of its command (`30_encoding.md` R53). -/
theorem acceptWord_of_decode {w : CmdWord} {i : Instr} (s : State) (h : decode w = .ok i) : acceptWord w s = exec i s := by
  rw [acceptWord, h]

/-! ## A read command while `CPV` = 0 -/

theorem startRead_of_not_configured {s : State} (h : s.cpv = false) : s.startRead = s.complete .notConfigured 0#32 := by
  obtain ⟨configured, -⟩ | ⟨-, hstart⟩ := startRead_cases s
  · simp [h] at configured
  · exact hstart

/-- A read command whose pin index, if it has one, is in range completes with `NotConfigured` while `CPV` = 0
(`42_read.md` R94, `43_accessors.md` R110, R113). -/
theorem exec_of_not_configured {i : Instr} {s : State} (isRead : IsReadOpcode i.opcode)
    (inRange : ∀ idx T, i = .readpin idx T → idx ≤ 11) (h : s.cpv = false) :
    exec i s = .next ((s.accept i.opcode i.aux i.arg).complete .notConfigured 0#32) := by
  have start (op aux : Nibble) (arg : Word) :
      (s.accept op aux arg).startRead = (s.accept op aux arg).complete .notConfigured 0#32 :=
    startRead_of_not_configured h
  cases i with
  | setcp | cal | calauto => simp +decide [IsReadOpcode, Instr.opcode] at isRead
  | read T | readarr T => exact congrArg _ (start _ _ _)
  | readpin idx T => exact (if_neg (inRange idx T rfl).not_gt).trans (congrArg _ (start _ _ _))

/-- A legal read word is a read command, its pin index, if it has one, the one in `aux` (`30_encoding.md` R51, R52). -/
theorem decode_of_legal_read {w : CmdWord} (legal : ¬ IllegalWord w)
    (hop : opField w = 0x4#4 ∨ opField w = 0x6#4 ∨ (opField w = 0x5#4 ∧ (auxField w).toNat ≤ 11)) :
    ∃ i, decode w = .ok i ∧ IsReadOpcode i.opcode ∧ ∀ idx T, i = .readpin idx T → idx ≤ 11 := by
  obtain hop | hop | ⟨hop, inRange⟩ := hop
  · exact ⟨_, decode_of_read hop (auxField_of_legal legal (by simp [hop])), .inl rfl, by simp⟩
  · exact ⟨_, decode_of_readarr hop (auxField_of_legal legal (by simp [hop])), .inr (.inr rfl), by simp⟩
  · refine ⟨_, decode_of_readpin hop, .inr (.inl rfl), ?_⟩
    rintro _ _ ⟨⟩
    exact inRange

/-! ## The order of the tests -/

/-- An accept step that completes leaves an idle core with exactly that outcome in the response (`60_exceptions.md` R127). -/
theorem acceptWord_reports (st : Status) {w : CmdWord} {s u : State} {p : Word}
    (h : acceptWord w s = .next (u.complete st p)) :
    ∃ t, acceptWord w s = .next t ∧ t.ph = .idle ∧ t.rspv = true ∧ t.rsp = st.code ++ p :=
  ⟨_, h, rfl, rfl, rfl⟩

/-- Settles O8: each test is the one branch of the accept step that its word takes, and ends in one completion. -/
theorem acceptPriority : Obligations.AcceptPriority := by
  refine fun s w _ => ⟨fun illegal => ?_, fun hop above => ?_, fun legal hop notConfigured => ?_, fun legal hop bounds => ?_⟩
  · exact acceptWord_reports .illegalCmd (acceptWord_of_illegalWord s illegal)
  · have runs := acceptWord_of_decode s (decode_of_readpin hop)
    exact acceptWord_reports .outOfRange (runs.trans (exec_readpin_of_out_of_range s _ above))
  · obtain ⟨i, hi, isRead, inRange⟩ := decode_of_legal_read legal hop
    have runs := acceptWord_of_decode s hi
    exact acceptWord_reports .notConfigured (runs.trans (exec_of_not_configured isRead inRange notConfigured))
  · have runs := acceptWord_of_decode s (decode_of_setcp hop (auxField_of_legal legal (.inl hop)))
    have badArg := not_legalPeriod_of_bounds bounds
    exact acceptWord_reports .badArg (runs.trans (exec_setcp_of_not_legalPeriod s badArg))

end Sys2Proof.Machine
end

section
/-!
The response after a completion: how long it is shown, and which accept steps clear it (`60_exceptions.md` rule R127).
-/

namespace Sys2Proof.Machine

/-- An idle core that is presented no command takes the edge and nothing else (log 5). -/
theorem step_of_no_command {s : State} (idle : s.ph = .idle) (noReset : s.edge.rst = false)
    (noCommand : s.edge.cmdValid = false) : step s = .next s.tick := by
  obtain ⟨reset, -⟩ | ⟨-, -, -, waits⟩ | ⟨-, -, valid, -⟩ | ⟨-, busy, -⟩ | ⟨-, -, -, busy, -⟩ := step_cases s
  · simp [noReset] at reset
  · exact waits
  · simp [noCommand] at valid
  · exact absurd idle busy
  · exact absurd idle busy

/-- While `RSPV` = 1 the port `rsp` shows the response (`10_state.md` R25). -/
theorem outputs_rsp_of_rspv {s : State} (h : s.rspv = true) : s.outputs.rsp = s.rsp := if_pos h

/-- A read that begins leaves `RSPV` as it found it. -/
theorem startRead_rspv_of_begun {s : State} (begun : s.startRead.ph ≠ .idle) : s.startRead.rspv = s.rspv := by
  obtain ⟨-, hstart⟩ | ⟨-, hstart⟩ := startRead_cases s <;> rw [hstart] at begun ⊢
  exact absurd rfl begun

/-- An accept step that begins a longer command clears `RSPV` (`30_encoding.md` R53). -/
theorem exec_rspv_of_begun {i : Instr} {s t : State} (h : exec i s = .next t) (begun : t.ph ≠ .idle) : t.rspv = false := by
  cases i with
  | setcp p =>
    simp only [exec, execSetcp] at h
    split at h <;> cases h <;> exact absurd rfl begun
  | cal T | calauto nf T =>
    cases h
    rfl
  | read T | readarr T =>
    cases h
    exact startRead_rspv_of_begun begun
  | readpin idx T =>
    simp only [exec, execReadpin] at h
    split at h
    · cases h
      exact absurd rfl begun
    · cases h
      exact startRead_rspv_of_begun begun

/-- Settles O26: the completion by its definition, then the step of an idle core without a command, and the accept step of a
command that begins. -/
theorem completeWritesOnlyTheResponse : Obligations.CompleteWritesOnlyTheResponse := by
  refine fun s st p => ⟨rfl, rfl, rfl, outputs_rsp_of_rspv rfl, fun noReset noCommand => ?_, fun i t => exec_rspv_of_begun⟩
  exact ⟨_, step_of_no_command rfl noReset noCommand, rfl, outputs_rsp_of_rspv rfl⟩

end Sys2Proof.Machine
end

section
/-!
The reset edge: the four registers it gives a value, and that no other register is live after it
(`70_reset_and_hazards.md` rule R140).
-/

namespace Sys2Proof.Machine

/-- The registers R140 gives a value hold it; nothing is said of the others. -/
abbrev State.JustReset (s : State) : Prop := s.ph = .idle ∧ s.req = none ∧ s.cpv = false ∧ s.rspv = false

theorem resetStep_justReset (s : State) : s.resetStep.JustReset := ⟨rfl, rfl, rfl, rfl⟩

/-- At an edge with `rst` = 1 the step is the reset step, whatever else is presented (`70_reset_and_hazards.md` R140). -/
theorem step_of_reset {s : State} (reset : s.edge.rst = true) : step s = .next s.tick.resetStep := if_pos reset

/-- In a state just reset every register without a value is dead, so two such states in one world agree whatever those
registers hold: log 12 is not used. -/
theorem agree_of_justReset {s t : State} (hs : s.JustReset) (ht : t.JustReset) (inputs : s.inputs = t.inputs)
    (edges : s.edges = t.edges) (ref : s.ref = t.ref) : s.Agree t := by
  obtain ⟨hph, hreq, hcpv, hrspv⟩ := hs
  obtain ⟨hph', hreq', hcpv', hrspv'⟩ := ht
  constructor
  case inputs => exact inputs
  case edges => exact edges
  case ref => exact ref
  all_goals simp [*]

/-- Settles O14: the reset step gives the four registers their values and takes the edge from the world; two states just
reset in one world agree. -/
theorem resetEdgeForgetsEverything : Obligations.ResetEdgeForgetsEverything := by
  refine ⟨fun s reset => ?_, fun s u t v hs hu inputs edges ref ht hv => ?_⟩
  · obtain ⟨hph, hreq, hcpv, hrspv⟩ := resetStep_justReset s.tick
    exact ⟨_, step_of_reset reset, hph, hreq, hcpv, hrspv, rfl, rfl⟩
  · cases (step_of_reset hs).symm.trans ht
    cases (step_of_reset hu).symm.trans hv
    exact agree_of_justReset (resetStep_justReset s.tick) (resetStep_justReset u.tick) inputs
      (congrArg (· + 1) edges) ref

end Sys2Proof.Machine
end

section
/-!
The decoder and the encoder undo each other, and the decoder agrees with the opcode table (`30_encoding.md` rules R50 to R54,
R60).
-/

namespace Sys2Proof

open Machine

/-! ## Decoding the word of a command -/

theorem decode_of_cal {w : CmdWord} (hop : opField w = 0x2#4) (haux : auxField w = 0#4) :
    decode w = .ok (.cal (argField w)) := by
  simp +decide [decode, withZeroAux, hop, haux]

theorem decode_of_calauto {w : CmdWord} (hop : opField w = 0x3#4) (haux : (auxField w).extractLsb' 1 3 = 0#3) :
    decode w = .ok (.calauto ((auxField w).getLsbD 0) (argField w)) := by
  simp +decide [decode, hop, haux]

/-- Settles O46: `encode` puts each operand in a field of its own, and the row of the command's opcode reads it back. -/
theorem decodeEncodeRoundTrip : Obligations.DecodeEncodeRoundTrip := by
  intro i wellFormed
  obtain ⟨hop, haux, harg⟩ := Laws.EncodeFields.of_encode i
  cases i with
  | setcp p => rw [decode_of_setcp hop haux, harg, Instr.arg]
  | cal T => rw [decode_of_cal hop haux, harg, Instr.arg]
  | calauto nf T =>
    have flag : (auxField (encode (.calauto nf T))).extractLsb' 1 3 = 0#3 ∧
        (auxField (encode (.calauto nf T))).getLsbD 0 = nf := by
      rw [haux, Instr.aux]
      cases nf <;> decide
    rw [decode_of_calauto hop flag.1, flag.2, harg, Instr.arg]
  | read T => rw [decode_of_read hop haux, harg, Instr.arg]
  | readpin idx T =>
    have inField : idx < 2 ^ 4 := of_decide_eq_true wellFormed
    rw [decode_of_readpin hop, haux, harg, Instr.aux, Instr.arg, BitVec.toNat_ofNat, Nat.mod_eq_of_lt inField]
  | readarr T => rw [decode_of_readarr hop haux, harg, Instr.arg]

/-! ## Encoding the command of a word -/

/-- The command a word decodes to is well-formed and has the word's fields. -/
structure Instr.HasFieldsOf (i : Instr) (w : CmdWord) : Prop where
  wellFormed : i.wellFormed = true
  op : i.opcode = opField w
  aux : i.aux = auxField w
  arg : i.arg = argField w

/-- A field that encodes the flag of `CALAUTO` is 0 or 1, as the flag is (`30_encoding.md` R52). -/
theorem calauto_aux_eq : ∀ aux : Nibble, aux.extractLsb' 1 3 = 0#3 → (if aux.getLsbD 0 then 1#4 else 0#4) = aux := by
  decide

/-- A command that needs `aux` = 0 decodes with no other. -/
theorem withZeroAux_eq_ok {aux : Nibble} {i j : Instr} (h : withZeroAux aux i = .ok j) : 0#4 = aux ∧ i = j := by
  unfold withZeroAux at h
  split at h
  next zero =>
    cases h
    exact ⟨zero.symm, rfl⟩
  · cases h

theorem decode_hasFieldsOf {w : CmdWord} {i : Instr} (h : decode w = .ok i) : i.HasFieldsOf w := by
  simp only [decode] at h
  split at h
  next hop =>
    obtain ⟨haux, rfl⟩ := withZeroAux_eq_ok h
    exact ⟨rfl, hop.symm, haux, rfl⟩
  split at h
  next hop =>
    obtain ⟨haux, rfl⟩ := withZeroAux_eq_ok h
    exact ⟨rfl, hop.symm, haux, rfl⟩
  split at h
  next hop =>
    split at h
    next haux =>
      cases h
      exact ⟨rfl, hop.symm, calauto_aux_eq _ haux, rfl⟩
    · cases h
  split at h
  next hop =>
    obtain ⟨haux, rfl⟩ := withZeroAux_eq_ok h
    exact ⟨rfl, hop.symm, haux, rfl⟩
  split at h
  next hop =>
    cases h
    exact ⟨decide_eq_true (auxField w).isLt, hop.symm, BitVec.ofNat_toNat _ _, rfl⟩
  split at h
  next hop =>
    obtain ⟨haux, rfl⟩ := withZeroAux_eq_ok h
    exact ⟨rfl, hop.symm, haux, rfl⟩
  · cases h

/-- The opcodes of no command, and the six that are left. -/
theorem opcode_cases : ∀ op : Nibble, (op = 0x0#4 ∨ 0x7 ≤ op.toNat) ∨
    op = 0x1#4 ∨ op = 0x2#4 ∨ op = 0x3#4 ∨ op = 0x4#4 ∨ op = 0x5#4 ∨ op = 0x6#4 := by
  decide

/-- A legal word decodes (`30_encoding.md` R51, R52). -/
theorem decode_of_legal {w : CmdWord} (legal : ¬ IllegalWord w) : ∃ i, decode w = .ok i := by
  have zeroAux := auxField_of_legal legal
  obtain reserved | hop | hop | hop | hop | hop | hop := opcode_cases (opField w)
  · exact absurd (reserved.imp_right .inl) legal
  · exact ⟨_, decode_of_setcp hop (zeroAux (by simp [hop]))⟩
  · exact ⟨_, decode_of_cal hop (zeroAux (by simp [hop]))⟩
  · have haux : (auxField w).extractLsb' 1 3 = 0#3 := by_contra fun other => legal (.inr (.inr (.inr ⟨hop, other⟩)))
    exact ⟨_, decode_of_calauto hop haux⟩
  · exact ⟨_, decode_of_read hop (zeroAux (by simp [hop]))⟩
  · exact ⟨_, decode_of_readpin hop⟩
  · exact ⟨_, decode_of_readarr hop (zeroAux (by simp [hop]))⟩

theorem decode_error_iff_illegalWord (w : CmdWord) : (∃ e, decode w = .error e) ↔ IllegalWord w := by
  refine ⟨fun ⟨e, he⟩ => by_contra fun legal => ?_, decode_error_of_illegalWord⟩
  obtain ⟨i, hi⟩ := decode_of_legal legal
  cases he.symm.trans hi

/-- Settles O47: the decoded command has the fields of its word, which make up the word; and every legal word decodes. -/
theorem encodeDecodeRoundTrip : Obligations.EncodeDecodeRoundTrip := by
  refine fun w => ⟨fun i hi => ?_, decode_error_iff_illegalWord w⟩
  obtain ⟨wellFormed, hop, haux, harg⟩ := decode_hasFieldsOf hi
  exact ⟨wellFormed, by rw [encode, hop, haux, harg, cmdWord_fields]⟩

/-! ## The opcode table -/

/-- A mask laid over a word is laid over each field. -/
theorem cmdWord_and (op op' aux aux' : Nibble) (arg arg' : Word) :
    cmdWord op aux arg &&& cmdWord op' aux' arg' = cmdWord (op &&& op') (aux &&& aux') (arg &&& arg') := by
  apply BitVec.eq_of_getLsbD_eq
  intro i _
  simp only [BitVec.getLsbD_and, getLsbD_cmdWord]
  split_ifs <;> rfl

/-- Two words with the same three fields are one word. -/
theorem cmdWord_inj {op op' aux aux' : Nibble} {arg arg' : Word} :
    cmdWord op aux arg = cmdWord op' aux' arg' ↔ op = op' ∧ aux = aux' ∧ arg = arg' := by
  refine ⟨fun h => ?_, by rintro ⟨rfl, rfl, rfl⟩; rfl⟩
  exact ⟨by simpa using congrArg opField h, by simpa using congrArg auxField h, by simpa using congrArg argField h⟩

/-- The rows that the fields `op` and `aux` match, each field under the row's mask (`30_encoding.md` R60). -/
def rowsOf (op aux : Nibble) : List TableRow :=
  opcodeTable.filter fun r => op &&& opField r.mask = opField r.pattern ∧ aux &&& auxField r.mask = auxField r.pattern

/-- No row looks at `arg`. -/
theorem argField_of_row : ∀ r ∈ opcodeTable, argField r.mask = 0#32 ∧ argField r.pattern = 0#32 := by decide

/-- Whether a word matches a row is a matter of `op` and `aux`. -/
theorem filter_matchesWord_eq_rowsOf (w : CmdWord) :
    opcodeTable.filter (·.matchesWord w) = rowsOf (opField w) (auxField w) := by
  refine List.filter_congr fun r hr => ?_
  obtain ⟨hmask, hpattern⟩ := argField_of_row r hr
  rw [TableRow.matchesWord, Bool.beq_eq_decide_eq, ← cmdWord_fields w, ← cmdWord_fields r.mask, ← cmdWord_fields r.pattern,
    cmdWord_and, hmask, hpattern]
  simp [cmdWord_inj]

/-- Every pair of fields of a `READPIN` matches its row alone. -/
theorem rowsOf_readpin : ∀ aux, (rowsOf opcodeReadpin aux).map (·.mnemonic) = ["READPIN"] := by decide

theorem rowsOf_of_illegalWord {w : CmdWord} (h : IllegalWord w) : rowsOf (opField w) (auxField w) = [] := by
  unfold IllegalWord at h
  revert h
  generalize opField w = op, auxField w = aux
  revert op aux
  decide

/-- The fields of a command match the row of that command alone. -/
theorem rowsOf_command (i : Instr) : (rowsOf i.opcode i.aux).map (·.mnemonic) = [i.mnemonic] := by
  cases i with
  | setcp | cal | read | readarr =>
    simp only [Instr.opcode, Instr.aux, Instr.mnemonic]
    decide
  | calauto nf =>
    simp only [Instr.opcode, Instr.aux, Instr.mnemonic]
    cases nf <;> decide
  | readpin idx => exact rowsOf_readpin (BitVec.ofNat 4 idx)

/-- Settles O48: the rows a word matches are those its `op` and `aux` match, which are the ones of the decoded command. -/
theorem decoderAgreesWithTheOpcodeTable : Obligations.DecoderAgreesWithTheOpcodeTable := by
  refine fun w => ⟨fun i hi => ?_, fun e he => ?_⟩
  · obtain ⟨-, hop, haux, -⟩ := decode_hasFieldsOf hi
    rw [filter_matchesWord_eq_rowsOf, ← hop, ← haux, rowsOf_command]
  · rw [filter_matchesWord_eq_rowsOf, rowsOf_of_illegalWord ((decode_error_iff_illegalWord w).mp ⟨e, he⟩)]

/-- Settles O49: each word of the table is decoded by evaluation. -/
theorem specWordsDecode : Obligations.SpecWordsDecode := by
  unfold Obligations.SpecWordsDecode
  decide

end Sys2Proof
end

section
/-!
The invariant holds at reset, and every step answers a next state that satisfies it (`10_state.md` sections 2 to 4,
`70_reset_and_hazards.md` sections 3, 4). An answer step also brings the running command nearer to its end, which is shown in
the same case analysis.
-/

namespace Sys2Proof.Machine

/-! ## Idle states -/

/-- An idle state satisfies the invariant if its period, its response and its working registers do. -/
theorem inv_of_idle {s : State} (idle : s.ph = .idle) (noRequest : s.req = none)
    (period : s.cpv = true → LegalPeriod s.cp.toNat)
    (response : s.rspv = true → ∃ st : Status, rspStatus s.rsp = st.code ∧ (¬ IsSuccess st → rspPayload s.rsp = 0#32))
    (ranges : s.Ranges) : s.Inv := by
  refine ⟨period, ?_, fun _ => idle, response, ?_, ?_, ?_, ?_, ranges, ?_, ?_, ?_⟩
  · rw [noRequest, State.phaseRequest, idle]
  all_goals simp [idle, ReadPhase]

theorem reset_ranges : State.reset.Ranges := by constructor <;> decide

theorem reset_inv : State.reset.Inv :=
  inv_of_idle rfl rfl (by decide) (fun noResponse => absurd noResponse (by decide)) reset_ranges

/-- Settles O50: the reset state is idle, and its registers hold 0. -/
theorem resetSatisfiesTheInvariant : Obligations.ResetSatisfiesTheInvariant := reset_inv

/-- The invariant says nothing of the outside world. -/
theorem State.Inv.inWorld {s : State} (h : s.Inv) (inputs : List Edge) (edges : Nat) (ref : Option RefSource) :
    State.Inv { s with inputs := inputs, edges := edges, ref := ref } :=
  ⟨h.period, h.request, h.responseIdle, h.response, h.readOpcode, h.calOpcode, h.pinIndex, h.readPeriod, { h.ranges with },
    h.nRunning, h.kRunning, h.aRunning⟩

theorem tick_inv {s : State} (h : s.Inv) : s.tick.Inv := h.inWorld _ _ _

theorem resetStep_inv (s : State) : s.resetStep.Inv := reset_inv.inWorld _ _ _

theorem complete_inv {s : State} {st : Status} {p : Word} (period : s.cpv = true → LegalPeriod s.cp.toNat)
    (ranges : s.Ranges) (payload : ¬ IsSuccess st → p = 0#32) : (s.complete st p).Inv := by
  refine inv_of_idle rfl rfl period (fun _ => ⟨st, rspStatus_rspWord st p, fun failed => ?_⟩) { ranges with }
  rw [State.complete_rsp, rspPayload_rspWord, payload failed]

/-! ## Busy states -/

/-- What the invariant says of the latches and the period while a read runs, in any of its phases. -/
def State.Reading (s : State) : Prop :=
  s.rspv = false ∧ IsReadOpcode s.opl ∧ (s.opl = opcodeReadpin → s.auxl.toNat ≤ 11) ∧ LegalPeriod s.cp.toNat ∧
  s.cpv = true ∧ s.cpl = s.cp

/-- What it says of them while a calibration runs. -/
def State.Calibrating (s : State) : Prop :=
  s.rspv = false ∧ IsCalOpcode s.opl ∧ (s.cpv = true → LegalPeriod s.cp.toNat)

theorem State.Inv.noResponse {s : State} (h : s.Inv) (busy : s.ph ≠ .idle) : s.rspv = false :=
  Bool.eq_false_iff.mpr fun response => busy (h.responseIdle response)

theorem State.Inv.reading {s : State} (h : s.Inv) (phase : ReadPhase s.ph) : s.Reading := by
  have busy : s.ph ≠ .idle := by rintro idle; simp [idle, ReadPhase] at phase
  obtain ⟨valid, copied⟩ := h.readPeriod phase
  exact ⟨h.noResponse busy, h.readOpcode phase, h.pinIndex phase, h.period valid, valid, copied⟩

theorem State.Inv.calibrating {s : State} (h : s.Inv) (cals : s.ph = .cals) : s.Calibrating :=
  ⟨h.noResponse (by simp [cals]), h.calOpcode cals, h.period⟩

/-- A state in a phase of a read satisfies the invariant if its request is that of the phase and its counts run. -/
theorem inv_of_reading {s : State} (phase : ReadPhase s.ph) (reading : s.Reading) (request : s.req = s.phaseRequest)
    (ranges : s.Ranges) (n : s.ph = .sync → s.n.toNat < 13) (k : s.ph = .bits → s.k.toNat < 12) : s.Inv := by
  obtain ⟨noResponse, isRead, pin, legal, valid, copied⟩ := reading
  have notCals : s.ph ≠ .cals := by rintro cals; simp [cals, ReadPhase] at phase
  refine ⟨fun _ => legal, request, ?_, ?_, fun _ => isRead, fun cals => absurd cals notCals, fun _ => pin,
    fun _ => ⟨valid, copied⟩, ranges, ?_, k, fun cals => absurd cals notCals⟩
  · simp [noResponse]
  · simp [noResponse]
  · exact fun running => n (running.resolve_right notCals)

/-- A state in `CALS` satisfies the invariant if its request is that of the phase and its counts run. -/
theorem inv_of_calibrating {s : State} (cals : s.ph = .cals) (calibrating : s.Calibrating)
    (request : s.req = some (.measure .low s.tl)) (ranges : s.Ranges) (n : s.n.toNat < 13)
    (a : s.opl = opcodeCalauto → s.a.toNat < 5) : s.Inv := by
  obtain ⟨noResponse, isCal, period⟩ := calibrating
  refine ⟨period, ?_, ?_, ?_, ?_, fun _ => isCal, ?_, ?_, ranges, fun _ => n, ?_, fun _ => a⟩
  · rw [request, State.phaseRequest, cals]
  all_goals simp [noResponse, cals, ReadPhase]

/-! ## The accept steps -/

theorem accept_ranges {s : State} (ranges : s.Ranges) (op aux : Nibble) (arg : Word) : (s.accept op aux arg).Ranges :=
  { ranges with }

theorem startRead_inv {s : State} (noResponse : s.rspv = false) (isRead : IsReadOpcode s.opl)
    (pin : s.opl = opcodeReadpin → s.auxl.toNat ≤ 11) (period : s.cpv = true → LegalPeriod s.cp.toNat)
    (ranges : s.Ranges) : s.startRead.Inv := by
  obtain ⟨valid, hstart⟩ | ⟨-, hstart⟩ := startRead_cases s <;> rw [hstart]
  · exact inv_of_reading (.inl rfl) ⟨noResponse, isRead, pin, period valid, valid, rfl⟩ rfl
      { ranges with n := Nat.zero_le _ } (fun _ => Nat.zero_lt_succ _) nofun
  · exact complete_inv period ranges fun _ => rfl

theorem startBurst_inv {s : State} (calibrating : s.Calibrating) (ranges : s.Ranges)
    (a : s.opl = opcodeCalauto → s.a.toNat < 5) : s.startBurst.Inv :=
  inv_of_calibrating rfl calibrating rfl { ranges with n := Nat.zero_le _ } (Nat.zero_lt_succ _) a

theorem exec_inv {i : Instr} {s t : State} (inv : s.Inv) (wellFormed : i.wellFormed = true) (h : exec i s = .next t) :
    t.Inv := by
  have ranges := accept_ranges inv.ranges i.opcode i.aux i.arg
  cases i with
  | setcp p =>
    by_cases legal : LegalPeriod p.toNat
    · cases (exec_setcp_of_legalPeriod s legal).symm.trans h
      exact complete_inv (fun _ => legal) { ranges with } fun failed => absurd (.inl rfl) failed
    · cases (exec_setcp_of_not_legalPeriod s legal).symm.trans h
      exact complete_inv inv.period ranges fun _ => rfl
  | cal T =>
    cases h
    exact startBurst_inv ⟨rfl, .inl rfl, inv.period⟩ ranges fun isCalauto => absurd isCalauto (by simp +decide)
  | calauto nf T =>
    cases h
    exact startBurst_inv ⟨rfl, .inr rfl, inv.period⟩
      { ranges with a := Nat.zero_le _, kd := Nat.le_refl _, sum := by simp +decide }
      fun _ => Nat.zero_lt_succ _
  | read T | readarr T =>
    cases h
    exact startRead_inv rfl (by simp +decide) (by simp +decide) inv.period ranges
  | readpin idx T =>
    have inField : idx < 2 ^ 4 := of_decide_eq_true wellFormed
    by_cases above : 11 < idx
    · cases (exec_readpin_of_out_of_range s T above).symm.trans h
      exact complete_inv inv.period ranges fun _ => rfl
    · cases (if_neg above).symm.trans h
      refine startRead_inv rfl (by simp +decide) (fun _ => ?_) inv.period ranges
      rw [State.accept_auxl, BitVec.toNat_ofNat, Nat.mod_eq_of_lt inField]
      exact Nat.le_of_not_lt above

theorem acceptWord_inv {w : CmdWord} {s t : State} (inv : s.Inv) (h : acceptWord w s = .next t) : t.Inv := by
  obtain ⟨i, u, hi, haccept, -⟩ | ⟨-, -, haccept⟩ := acceptWord_cases w s
  · exact exec_inv inv (decode_hasFieldsOf hi).wellFormed (haccept.symm.trans h)
  · cases haccept.symm.trans h
    exact complete_inv inv.period (accept_ranges inv.ranges _ _ _) fun _ => rfl

/-! ## The answer steps -/

/-- An answer step ends the command, or leaves fewer answers to come. -/
def State.Nearer (s t : State) : Prop := t.runEnded ∨ (t.ph ≠ .idle ∧ t.answersLeft < s.answersLeft)

/-- The outcome is a next state that satisfies the invariant, with the command nearer to its end than in `s`. -/
def State.AdvancesTo (s : State) (out : Result) : Prop := ∃ t, out = .next t ∧ t.Inv ∧ s.Nearer t

theorem complete_runEnded (s : State) (st : Status) (p : Word) : (s.complete st p).runEnded := ⟨rfl, rfl, rfl⟩

/-- The end of a read, in a state that differs from `s` in its counts only. -/
theorem readEnd_advances {s u : State} (r : ReadResult) (reading : u.Reading) (ranges : u.Ranges) :
    s.AdvancesTo (readEnd r u) := by
  obtain ⟨-, isRead, -, legal, -⟩ := reading
  obtain ⟨st, p, hreport, hend⟩ | ⟨notRead, -⟩ := readEnd_cases r u
  · exact ⟨_, hend, complete_inv (fun _ => legal) ranges (report_failure hreport), .inl (complete_runEnded u st p)⟩
  · exact absurd isRead notRead

theorem syncAnswer_advances {s : State} {ans : Answer} (inv : s.Inv) (sync : s.ph = .sync)
    (kind : ans = .timedOut ∨ ∃ d, ans = .dur d) : s.AdvancesTo (syncAnswer ans s) := by
  have reading := inv.reading (.inl sync)
  have running := inv.nRunning (.inl sync)
  have counted := count_toNat (n := s.n) (by omega)
  have ranges : State.Ranges { s with n := s.n + 1#4 } := { inv.ranges with n := by simp only [counted]; omega }
  obtain rfl | ⟨d, rfl⟩ := kind
  · exact readEnd_advances _ reading inv.ranges
  by_cases window : SyncWindow s.cpl.toNat d.toNat
  · refine ⟨_, syncAnswer_of_window window, inv_of_reading (.inr (.inl rfl)) reading rfl { ranges with } nofun nofun,
      .inr ⟨nofun, ?_⟩⟩
    simp only [State.answersLeft, sync]
    omega
  by_cases thirteenth : s.n.toNat + 1 = 13
  · rw [syncAnswer_of_thirteenth window thirteenth]
    exact readEnd_advances _ reading ranges
  · refine ⟨_, syncAnswer_of_earlier window (by omega), inv_of_reading (.inl sync) reading ?_ { ranges with } ?_ ?_,
      .inr ⟨by simp [sync], ?_⟩⟩
    · exact (phaseRequest_of_sync sync).symm
    · intro _
      simp only [counted]
      omega
    · simp [sync]
    · simp only [State.answersLeft, sync, counted]
      omega

theorem dstartAnswer_advances {s : State} {ans : Answer} (inv : s.Inv) (dstart : s.ph = .dstart)
    (kind : ans = .timedOut ∨ ans = .ok) : s.AdvancesTo (dstartAnswer ans s) := by
  have reading := inv.reading (.inr (.inl dstart))
  obtain rfl | rfl := kind
  · exact readEnd_advances _ reading inv.ranges
  · refine ⟨_, rfl, inv_of_reading (.inr (.inr rfl)) reading rfl
      { inv.ranges with k := Nat.zero_le _, acc := Nat.zero_lt_succ _ } nofun (fun _ => Nat.zero_lt_succ _),
      .inr ⟨nofun, ?_⟩⟩
    simp [State.answersLeft, dstart]

/-- A bit shifted in doubles the accumulator and adds itself, as long as the accumulator has room (`42_read.md` R99). -/
theorem shiftIn_toNat {acc : DataWord} (b : Bool) (room : acc.toNat < 2 ^ 11) :
    (shiftIn acc b).toNat = 2 * acc.toNat + (if b then 1 else 0) := by
  have shifted : (acc <<< 1).toNat = acc.toNat <<< 1 := by
    rw [BitVec.toNat_shiftLeft, Nat.shiftLeft_eq]
    omega
  have bit : (if b then 1#12 else 0#12).toNat = if b then 1 else 0 := by cases b <;> rfl
  have small : (if b then 1 else 0) < 2 ^ 1 := by split <;> decide
  rw [shiftIn, BitVec.toNat_or, shifted, bit, ← Nat.shiftLeft_add_eq_or_of_lt small, Nat.shiftLeft_eq, Nat.mul_comm, pow_one]

/-- A bit more in the accumulator, and no more than the bits received. -/
theorem shiftIn_lt {s : State} (b : Bool) (ranges : s.Ranges) (more : s.k.toNat < 12) :
    (shiftIn s.acc b).toNat < 2 ^ (s.k.toNat + 1) := by
  have room : 2 ^ s.k.toNat ≤ 2 ^ 11 := Nat.pow_le_pow_right (by decide) (by omega)
  have held := ranges.acc
  rw [shiftIn_toNat b (by omega), pow_succ]
  split <;> omega

theorem bitsAnswer_advances {s : State} {ans : Answer} (inv : s.Inv) (bits : s.ph = .bits)
    (kind : ans = .timedOut ∨ ∃ d, ans = .dur d) : s.AdvancesTo (bitsAnswer ans s) := by
  have reading := inv.reading (.inr (.inr bits))
  have running := inv.kRunning bits
  have counted := count_toNat (n := s.k) (by omega)
  obtain rfl | ⟨d, rfl⟩ := kind
  · exact readEnd_advances _ reading inv.ranges
  cases hbit : bitOf s.cpl.toNat d.toNat with
  | none =>
    rw [bitsAnswer_of_no_bit hbit]
    exact readEnd_advances _ reading inv.ranges
  | some bit =>
    have ranges : State.Ranges { s with acc := shiftIn s.acc bit, k := s.k + 1#4 } :=
      { inv.ranges with
        k := by simp only [counted]; omega
        acc := by simpa only [counted] using shiftIn_lt bit inv.ranges running }
    by_cases last : s.k.toNat + 1 = 12
    · rw [bitsAnswer_of_last_bit hbit last]
      exact readEnd_advances _ reading ranges
    · refine ⟨_, bitsAnswer_of_more_bits hbit (by omega), inv_of_reading (.inr (.inr bits)) reading ?_ { ranges with } ?_ ?_,
        .inr ⟨by simp [bits], ?_⟩⟩
      · exact (phaseRequest_of_bits bits).symm
      · simp [bits]
      · intro _
        simp only [counted]
        omega
      · simp only [State.answersLeft, bits, counted]
        omega

/-! ## The ends of an attempt -/

/-- How `finish` ends `CALAUTO` (`41_calibrate.md` R84). -/
theorem finishOutcome_cases (nf : Bool) (kd sum : Nat) :
    (0 < kd ∧ finishOutcome nf kd sum = (.ok, some (sum / kd))) ∨
    (kd = 0 ∧ nf = true ∧ finishOutcome nf kd sum = (.calIndeterminate, none)) ∨
    (kd = 0 ∧ nf = false ∧ finishOutcome nf kd sum = (.calDegraded, some Config.defaultCp2)) := by
  obtain rfl | some_determined := kd.eq_zero_or_pos
  · cases nf <;> simp [finishOutcome]
  · exact .inl ⟨some_determined, if_pos some_determined⟩

/-- An end of a calibration that installs a period installs a legal one and reports a success. -/
def InstallsLegally (out : Status × Option Nat) : Prop := ∀ v, out.2 = some v → IsSuccess out.1 ∧ LegalPeriod v

theorem defaultCp2_legal : LegalPeriod Config.defaultCp2 :=
  ⟨Nat.succ_le_succ (Nat.zero_le _), Config.defaultIndex.isLt⟩

/-- An average of determined periods is at most the greatest of them (`41_calibrate.md` R85). -/
theorem average_legal {kd sum : Nat} (some_determined : 0 < kd) (lower : kd ≤ sum) (upper : sum ≤ kd * 265121437) :
    LegalPeriod (sum / kd) :=
  ⟨Nat.div_pos lower some_determined, (Nat.div_le_of_le_mul upper).trans (by decide)⟩

theorem finishOutcome_installsLegally {nf : Bool} {kd sum : Nat} (lower : kd ≤ sum) (upper : sum ≤ kd * 265121437) :
    InstallsLegally (finishOutcome nf kd sum) := by
  intro v hv
  obtain ⟨some_determined, hout⟩ | ⟨-, -, hout⟩ | ⟨-, -, hout⟩ := finishOutcome_cases nf kd sum <;> rw [hout] at hv ⊢ <;>
    cases hv
  · exact ⟨.inl rfl, average_legal some_determined lower upper⟩
  · exact ⟨.inr rfl, defaultCp2_legal⟩

/-- A determined period is at most 265121437 half-microseconds (`41_calibrate.md` R85). -/
def Attempt.InRange (r : Attempt) : Prop := ∀ p, r = .det p → 1 ≤ p ∧ p ≤ 265121437

theorem classify_inRange (mn mx : Word) : (classify mn.toNat mx.toNat).InRange :=
  fun _ => classify_det_bounds mx.isLt

theorem calOutcome_installsLegally {r : Attempt} (inRange : r.InRange) : InstallsLegally (calOutcome r) := by
  intro v hv
  cases r with
  | det p =>
    cases hv
    obtain ⟨lower, upper⟩ := inRange v rfl
    exact ⟨.inl rfl, lower, upper.trans (by decide)⟩
  | indet | tmo => cases hv

theorem endCalibration_inv {s : State} {out : Status × Option Nat} (period : s.cpv = true → LegalPeriod s.cp.toNat)
    (ranges : s.Ranges) (legally : InstallsLegally out) : (s.endCalibration out.1 out.2).Inv := by
  obtain ⟨st, _ | v⟩ := out
  · exact complete_inv period ranges fun _ => rfl
  · obtain ⟨success, legal⟩ := legally v rfl
    have inWord : (BitVec.ofNat 32 v).toNat = v := by
      rw [BitVec.toNat_ofNat, Nat.mod_eq_of_lt (legal.2.trans_lt (by decide))]
    refine complete_inv (fun _ => ?_) { ranges with } fun failed => absurd success failed
    rw [State.setPeriod_cp, inWord]
    exact legal

theorem endCalibration_runEnded (s : State) (st : Status) (p : Option Nat) : (s.endCalibration st p).runEnded := by
  cases p <;> exact complete_runEnded _ _ _

/-- The counts after an attempt of `CALAUTO` that did not time out are in their ranges. -/
theorem countAttempt_ranges {s : State} {p : Option Nat} (ranges : s.Ranges) (more : s.a.toNat < 5)
    (inRange : ∀ v, p = some v → 1 ≤ v ∧ v ≤ 265121437) : (s.countAttempt p).Ranges := by
  have counted := attemptCount_toNat (s := s) (by omega)
  have kd := ranges.kd
  obtain ⟨lower, upper⟩ := ranges.sum
  cases p with
  | none => exact { ranges with a := by simp only [State.countAttempt, counted]; omega
                                kd := by simp only [State.countAttempt, counted]; omega }
  | some v =>
    obtain ⟨hlower, hupper⟩ := inRange v rfl
    have counted_kd := countAttempt_some_kd_toNat v (s := s) (by omega)
    have counted_sum := countAttempt_some_sum_toNat (s := s) (p := v) (by omega)
    exact { ranges with
      a := by simp only [State.countAttempt, counted]; omega
      kd := by rw [counted_kd]; simp only [State.countAttempt, counted]; omega
      sum := by rw [counted_kd, counted_sum]; omega }

@[simp] theorem State.countAttempt_a (s : State) (p : Option Nat) : (s.countAttempt p).a = s.a + 1#3 := by cases p <;> rfl
@[simp] theorem State.countAttempt_opl (s : State) (p : Option Nat) : (s.countAttempt p).opl = s.opl := by cases p <;> rfl
@[simp] theorem State.countAttempt_rspv (s : State) (p : Option Nat) : (s.countAttempt p).rspv = s.rspv := by cases p <;> rfl

/-- After an attempt of `CALAUTO` the next burst begins, or the fifth ends the command. -/
theorem autoAttemptDone_advances {s u : State} {p : Option Nat} (cals : s.ph = .cals) (isCalauto : s.opl = opcodeCalauto)
    (running : s.n.toNat < 13) (more : s.a.toNat < 5) (hopl : u.opl = s.opl) (ha : u.a = s.a)
    (calibrating : u.Calibrating) (ranges : u.Ranges) (inRange : ∀ v, p = some v → 1 ≤ v ∧ v ≤ 265121437) :
    s.AdvancesTo (.next (u.autoAttemptDone p)) := by
  rw [← ha] at more
  have ranges' := countAttempt_ranges (p := p) ranges more inRange
  have calibrating' : (u.countAttempt p).Calibrating := by
    simpa [State.Calibrating] using calibrating
  have counted := attemptCount_toNat (s := u) more
  by_cases fifth : u.a.toNat + 1 = 5
  · rw [autoAttemptDone_of_fifth p fifth]
    exact ⟨_, rfl, endCalibration_inv calibrating'.2.2 ranges'
      (finishOutcome_installsLegally ranges'.sum.1 ranges'.sum.2), .inl (endCalibration_runEnded _ _ _)⟩
  · have fourth : u.a.toNat + 1 < 5 := by omega
    rw [autoAttemptDone_of_more p fourth]
    refine ⟨_, rfl, startBurst_inv calibrating' ranges' ?_, .inr ⟨by simp, ?_⟩⟩
    · intro _
      rw [State.countAttempt_a, counted]
      exact fourth
    · simp only [State.answersLeft, State.startBurst_ph, State.startBurst_opl, State.startBurst_a, State.startBurst_n,
        State.countAttempt_opl, State.countAttempt_a, counted, hopl, cals, isCalauto, ← ha]
      simp only [if_true, BitVec.toNat_ofNat]
      omega

/-- The end of an attempt, in a state that differs from `s` in its samples only. -/
theorem attemptEnd_advances {s u : State} {r : Attempt} (inv : s.Inv) (cals : s.ph = .cals) (hopl : u.opl = s.opl)
    (ha : u.a = s.a) (calibrating : u.Calibrating) (ranges : u.Ranges) (inRange : r.InRange) :
    s.AdvancesTo (attemptEnd r u) := by
  obtain isCal | isCalauto := calibrating.2.1
  · rw [attemptEnd_of_cal r isCal]
    exact ⟨_, rfl, endCalibration_inv calibrating.2.2 ranges (calOutcome_installsLegally inRange),
      .inl (endCalibration_runEnded _ _ _)⟩
  · rw [attemptEnd_of_calauto r isCalauto]
    have done (p : Option Nat) := autoAttemptDone_advances (p := p) cals (hopl.symm.trans isCalauto)
      (inv.nRunning (.inr cals)) (inv.aRunning cals (hopl.symm.trans isCalauto)) hopl ha calibrating ranges
    cases r with
    | det p => exact done (some p) fun v hv => inRange v (by cases hv; rfl)
    | indet => exact done none nofun
    | tmo => exact ⟨_, rfl, complete_inv calibrating.2.2 ranges fun _ => rfl, .inl (complete_runEnded _ _ _)⟩

/-- The least duration is still no greater than the greatest. -/
theorem recordSample_ranges {s : State} (d : Word) (ranges : s.Ranges) (running : s.n.toNat < 13) :
    (s.recordSample d).Ranges := by
  have counted := recordSample_n_toNat d (s := s) running
  have samples := ranges.samples
  refine { ranges with n := by omega, samples := ?_ }
  simp only [State.recordSample]
  split_ifs <;> omega

theorem calsAnswer_advances {s : State} {ans : Answer} (inv : s.Inv) (cals : s.ph = .cals)
    (kind : ans = .timedOut ∨ ∃ d, ans = .dur d) : s.AdvancesTo (calsAnswer ans s) := by
  have calibrating := inv.calibrating cals
  have running := inv.nRunning (.inr cals)
  obtain rfl | ⟨d, rfl⟩ := kind
  · exact attemptEnd_advances inv cals rfl rfl calibrating inv.ranges nofun
  have counted := recordSample_n_toNat d (s := s) running
  have ranges := recordSample_ranges d inv.ranges running
  by_cases last : s.n.toNat + 1 = 13
  · rw [calsAnswer_of_last_sample d last]
    exact attemptEnd_advances inv cals rfl rfl calibrating ranges (classify_inRange _ _)
  · refine ⟨_, calsAnswer_of_more_samples d (by omega), inv_of_calibrating cals calibrating rfl { ranges with } ?_
      (inv.aRunning cals), .inr ⟨by simp [State.recordSample, cals], ?_⟩⟩
    · simp only [State.issue_n, counted]
      omega
    · simp only [State.answersLeft, State.issue_ph, State.issue_n, State.issue_opl, State.issue_a, counted, cals]
      simp only [State.recordSample, cals]
      split_ifs <;> omega

/-! ## The step -/

/-- Every answer that fits the request advances the running command. -/
theorem answerStep_advances {s : State} {ans : Answer} {r : Request} (inv : s.Inv) (busy : s.ph ≠ .idle) (hreq : s.req = some r)
    (fits : (∃ l T, r = .wait l T ∧ (ans = .timedOut ∨ ans = .ok)) ∨
      (∃ l T, r = .measure l T ∧ (ans = .timedOut ∨ ∃ d, ans = .dur d))) :
    s.AdvancesTo (answerStep ans s) := by
  have request := inv.request
  obtain ⟨onSync, onDstart, onBits⟩ := answerStep_of_readPhase ans request
  rw [hreq] at request
  cases phase : s.ph with
  | idle => exact absurd phase busy
  | sync =>
    cases request.trans (phaseRequest_of_sync phase)
    rw [onSync phase]
    exact syncAnswer_advances inv phase (by simpa using fits)
  | dstart =>
    cases request.trans (phaseRequest_of_dstart phase)
    rw [onDstart phase]
    exact dstartAnswer_advances inv phase (by simpa using fits)
  | bits =>
    cases request.trans (phaseRequest_of_bits phase)
    rw [onBits phase]
    exact bitsAnswer_advances inv phase (by simpa using fits)
  | cals =>
    have hcals : s.phaseRequest = some (.measure .low s.tl) := by rw [State.phaseRequest, phase]
    cases request.trans hcals
    rw [answerStep_of_cals ans phase hreq]
    exact calsAnswer_advances inv phase (by simpa using fits)

/-- An answer taken from the channel advances the running command. -/
theorem takenAnswer_advances {s u : State} {e : Edge} {ans : Answer} (inv : s.Inv) (busy : s.ph ≠ .idle)
    (taken : s.tick.takeAnswer e = some (ans, u)) : s.AdvancesTo (answerStep ans u) := by
  obtain ⟨r, hreq, hu, -, fits⟩ := takeAnswer_some taken
  rw [hu]
  exact answerStep_advances (inv.inWorld _ _ _) busy hreq fits

/-- In the invariant every step answers a next state of the invariant. -/
theorem step_inv {s : State} (inv : s.Inv) : ∃ t, step s = .next t ∧ t.Inv := by
  obtain ⟨-, hs⟩ | ⟨-, -, -, hs⟩ | ⟨-, -, -, hs⟩ | ⟨-, -, -, hs⟩ | ⟨ans, u, -, busy, taken, hs⟩ := step_cases s
  · exact ⟨_, hs, resetStep_inv _⟩
  · exact ⟨_, hs, tick_inv inv⟩
  · obtain ⟨t, ht⟩ : ∃ t, acceptWord s.edge.cmd s.tick = .next t := by
      obtain ⟨i, t, -, haccept, hi⟩ | ⟨-, -, haccept⟩ := acceptWord_cases s.edge.cmd s.tick
      · exact ⟨t, haccept.trans hi⟩
      · exact ⟨_, haccept⟩
    exact ⟨t, hs.trans ht, acceptWord_inv (tick_inv inv) ht⟩
  · exact ⟨_, hs, tick_inv inv⟩
  · obtain ⟨t, ht, inv', -⟩ := takenAnswer_advances inv busy taken
    exact ⟨t, hs.trans ht, inv'⟩

/-- Settles O51: the step's next state is the one of `step_inv`. -/
theorem stepKeepsTheInvariant : Obligations.StepKeepsTheInvariant := by
  intro s t inv h
  obtain ⟨u, hu, inv'⟩ := step_inv inv
  cases hu.symm.trans h
  exact inv'

/-- Settles O52: the next state is the one of `step_inv`. -/
theorem invariantStatesNeverStop : Obligations.InvariantStatesNeverStop := by
  intro s inv
  obtain ⟨t, ht, -⟩ := step_inv inv
  exact ⟨t, ht⟩

/-- Settles O59: the request is that of the phase, and five times a legal period fits 32 bits. -/
theorem requestsCarryTheirTimeouts : Obligations.RequestsCarryTheirTimeouts := by
  intro s r inv hreq
  have request : s.phaseRequest = some r := inv.request.symm.trans hreq
  refine ⟨fun phase => ?_, fun bits => ?_, fun dstart => ?_, fun idle => ?_⟩
  · obtain sync | cals := phase
    · cases (phaseRequest_of_sync sync).symm.trans request
      rfl
    · rw [State.phaseRequest, cals] at request
      cases request
      rfl
  · cases (phaseRequest_of_bits bits).symm.trans request
    rfl
  · cases (phaseRequest_of_dstart dstart).symm.trans request
    obtain ⟨-, -, -, ⟨-, upper⟩, -, copied⟩ := inv.reading (.inr (.inl dstart))
    refine ⟨_, rfl, ?_⟩
    rw [dataStartTimeout, BitVec.toNat_ofNat, copied, Nat.mod_eq_of_lt (by simp only [Config.cp2Max] at upper; omega)]
  · rw [State.phaseRequest, idle] at request
    cases request

end Sys2Proof.Machine
end

section
/-!
Two states that agree on their live registers show the same ports and step to states that agree, or stop alike
(`10_state.md` sections 4, 7).
-/

namespace Sys2Proof.Machine

/-! ## What agreement comes to, phase by phase -/

/-- The two states have the same period, if any, and the same outside world. -/
def State.SameBase (s u : State) : Prop :=
  s.cpv = u.cpv ∧ (s.cpv = true → s.cp = u.cp) ∧ s.inputs = u.inputs ∧ s.edges = u.edges ∧ s.ref = u.ref

/-- The two states show the same response, if any. -/
def State.SameResponse (s u : State) : Prop := s.rspv = u.rspv ∧ (s.rspv = true → s.rsp = u.rsp)

/-- The two states run the same command. -/
def State.SameLatches (s u : State) : Prop := s.opl = u.opl ∧ s.auxl = u.auxl ∧ s.tl = u.tl

/-- In `CALAUTO` the two states have finished the same attempts. -/
def State.SameCounts (s u : State) : Prop := s.opl = opcodeCalauto → s.a = u.a ∧ s.kd = u.kd ∧ s.sum = u.sum

section
variable {s u : State}

theorem State.Agree.base (h : s.Agree u) : s.SameBase u := ⟨h.cpv, h.cp, h.inputs, h.edges, h.ref⟩

theorem State.Agree.response (h : s.Agree u) : s.SameResponse u := ⟨h.rspv, h.rsp⟩

theorem State.Agree.latches (h : s.Agree u) (busy : s.ph ≠ .idle) : s.SameLatches u := ⟨h.opl busy, h.auxl busy, h.tl busy⟩

theorem State.Agree.counts (h : s.Agree u) (cals : s.ph = .cals) : s.SameCounts u :=
  fun isCalauto => ⟨h.a cals isCalauto, h.kd cals isCalauto, h.sum cals isCalauto⟩

/-- Idle states agree on their period and their response, whatever the working registers hold. -/
theorem agree_of_idle (base : s.SameBase u) (response : s.SameResponse u) (idle : s.ph = .idle) (idle' : u.ph = .idle)
    (req : s.req = u.req) : s.Agree u := by
  obtain ⟨cpv, cp, inputs, edges, ref⟩ := base
  obtain ⟨rspv, rsp⟩ := response
  constructor
  case cpv => exact cpv
  case cp => exact cp
  case inputs => exact inputs
  case edges => exact edges
  case ref => exact ref
  case rspv => exact rspv
  case rsp => exact rsp
  case req => exact req
  all_goals simp [idle, idle', ReadPhase]

/-- States in one phase of a read agree on the command, the period's copy and the counts of the phase. -/
theorem agree_of_reading (base : s.SameBase u) (response : s.SameResponse u) (latches : s.SameLatches u)
    (phase : ReadPhase s.ph) (ph : s.ph = u.ph) (req : s.req = u.req) (cpl : s.cpl = u.cpl) (n : s.ph = .sync → s.n = u.n)
    (bits : s.ph = .bits → s.k = u.k ∧ s.acc = u.acc) : s.Agree u := by
  obtain ⟨cpv, cp, inputs, edges, ref⟩ := base
  obtain ⟨rspv, rsp⟩ := response
  obtain ⟨opl, auxl, tl⟩ := latches
  have notCals : s.ph ≠ .cals := by rintro cals; simp [cals, ReadPhase] at phase
  exact ⟨ph, req, cpv, cp, rspv, rsp, inputs, edges, ref, fun _ => opl, fun _ => auxl, fun _ => tl, fun _ => cpl,
    fun running => n (running.resolve_right notCals), fun h => (bits h).1, fun h => (bits h).2,
    fun cals => absurd cals notCals, fun cals => absurd cals notCals, fun cals => absurd cals notCals,
    fun cals => absurd cals notCals, fun cals => absurd cals notCals⟩

/-- States in `CALS` agree on the command, the samples so far and, in `CALAUTO`, the attempts so far. -/
theorem agree_of_calibrating (base : s.SameBase u) (response : s.SameResponse u) (latches : s.SameLatches u)
    (counts : s.SameCounts u) (cals : s.ph = .cals) (cals' : u.ph = .cals) (req : s.req = u.req) (n : s.n = u.n)
    (samples : s.n ≠ 0#4 → s.minr = u.minr ∧ s.maxr = u.maxr) : s.Agree u := by
  obtain ⟨cpv, cp, inputs, edges, ref⟩ := base
  obtain ⟨rspv, rsp⟩ := response
  obtain ⟨opl, auxl, tl⟩ := latches
  have notRead : ¬ ReadPhase s.ph := by simp [cals, ReadPhase]
  have notBits : s.ph ≠ .bits := by simp [cals]
  exact ⟨cals.trans cals'.symm, req, cpv, cp, rspv, rsp, inputs, edges, ref, fun _ => opl, fun _ => auxl, fun _ => tl,
    fun read => absurd read notRead, fun _ => n, fun bits => absurd bits notBits, fun bits => absurd bits notBits,
    fun _ first => (samples first).1, fun _ first => (samples first).2, fun _ h => (counts h).1, fun _ h => (counts h).2.1,
    fun _ h => (counts h).2.2⟩

theorem complete_agree (base : s.SameBase u) (st : Status) (p : Word) : (s.complete st p).Agree (u.complete st p) :=
  agree_of_idle base ⟨rfl, fun _ => rfl⟩ rfl rfl rfl

/-! ## The ports -/

theorem outputs_of_agree (h : s.Agree u) : s.outputs = u.outputs := by
  have rsp : (if u.rspv then s.rsp else Config.unspecifiedRsp u.edges) =
      if u.rspv then u.rsp else Config.unspecifiedRsp u.edges :=
    ite_congr rfl (fun valid => h.rsp (h.rspv.trans valid)) fun _ => rfl
  have cp : (if u.cpv then s.cp else Config.unspecifiedCp u.edges) = if u.cpv then u.cp else Config.unspecifiedCp u.edges :=
    ite_congr rfl (fun valid => h.cp (h.cpv.trans valid)) fun _ => rfl
  simp only [State.outputs, State.busy, h.ph, h.req, h.edges, h.rspv, h.cpv, rsp, cp]

/-! ## The edge -/

theorem edge_of_inputs (inputs : s.inputs = u.inputs) : s.edge = u.edge := by rw [State.edge, State.edge, inputs]

theorem tick_sameBase (base : s.SameBase u) (req : s.req = u.req) : s.tick.SameBase u.tick := by
  obtain ⟨cpv, cp, inputs, edges, ref⟩ := base
  refine ⟨cpv, cp, congrArg List.tail inputs, congrArg (· + 1) edges, ?_⟩
  rw [State.tick_ref, State.tick_ref, edge_of_inputs inputs, State.passTime, State.passTime, ref, req]

theorem tick_agree (h : s.Agree u) : s.tick.Agree u.tick := by
  obtain ⟨-, -, inputs, edges, ref⟩ := tick_sameBase h.base h.req
  exact { h with inputs := inputs, edges := edges, ref := ref }

end

/-! ## Results -/

/-- Both steps answer, with states that agree, or both stop with the same fault. -/
inductive ResultsAgree : Result → Result → Prop where
  | next {s u : State} (agree : s.Agree u) : ResultsAgree (.next s) (.next u)
  | fault (r : Fault) : ResultsAgree (.fault r) (.fault r)

section
variable {s u : State}

theorem completions_agree (base : s.SameBase u) (st : Status) (p : Word) :
    ResultsAgree (.next (s.complete st p)) (.next (u.complete st p)) :=
  .next (complete_agree base st p)

/-! ## The accept steps -/

theorem startRead_agree (base : s.SameBase u) (response : s.SameResponse u) (latches : s.SameLatches u) :
    s.startRead.Agree u.startRead := by
  obtain ⟨cpv, cp, -⟩ := id base
  obtain ⟨-, -, tl⟩ := id latches
  obtain ⟨valid, hs⟩ | ⟨invalid, hs⟩ := startRead_cases s
  · obtain ⟨-, hu⟩ | ⟨invalid', -⟩ := startRead_cases u
    · rw [hs, hu]
      exact agree_of_reading base response latches (.inl rfl) rfl (by rw [tl]) (cp valid) (fun _ => rfl) nofun
    · simp [← cpv, valid] at invalid'
  · rw [hs, startRead_of_not_configured (cpv.symm.trans invalid)]
    exact complete_agree base _ _

theorem startBurst_agree (base : s.SameBase u) (response : s.SameResponse u) (latches : s.SameLatches u)
    (counts : s.SameCounts u) : s.startBurst.Agree u.startBurst := by
  obtain ⟨-, -, tl⟩ := id latches
  exact agree_of_calibrating base response latches counts rfl rfl (by rw [State.startBurst_req, tl, State.startBurst_req]) rfl
    fun first => absurd rfl first

theorem setPeriod_sameBase (p : Word) (base : s.SameBase u) : (s.setPeriod p).SameBase (u.setPeriod p) := by
  obtain ⟨-, -, world⟩ := base
  exact ⟨rfl, fun _ => rfl, world⟩

/-- After the common part of the accept step the two states have the same latches and no response. -/
theorem exec_agree (i : Instr) (base : s.SameBase u) : ResultsAgree (exec i s) (exec i u) := by
  have accepted (op aux : Nibble) (arg : Word) : (s.accept op aux arg).SameBase (u.accept op aux arg) := base
  have response (op aux : Nibble) (arg : Word) : (s.accept op aux arg).SameResponse (u.accept op aux arg) := ⟨rfl, nofun⟩
  have latches (op aux : Nibble) (arg : Word) : (s.accept op aux arg).SameLatches (u.accept op aux arg) := ⟨rfl, rfl, rfl⟩
  have started (op aux : Nibble) (arg : Word) : (s.accept op aux arg).startRead.Agree (u.accept op aux arg).startRead :=
    startRead_agree base (response op aux arg) (latches op aux arg)
  cases i with
  | setcp p =>
    by_cases legal : LegalPeriod p.toNat
    · rw [exec_setcp_of_legalPeriod s legal, exec_setcp_of_legalPeriod u legal]
      exact completions_agree (setPeriod_sameBase p (accepted _ _ _)) _ _
    · rw [exec_setcp_of_not_legalPeriod s legal, exec_setcp_of_not_legalPeriod u legal]
      exact completions_agree (accepted _ _ _) _ _
  | cal T =>
    have counts : (s.accept opcodeCal 0#4 T).SameCounts (u.accept opcodeCal 0#4 T) :=
      fun isCalauto => absurd isCalauto (by simp +decide)
    exact .next (startBurst_agree base (response _ _ _) (latches _ _ _) counts)
  | calauto nf T =>
    exact .next (startBurst_agree base (response opcodeCalauto (Instr.calauto nf T).aux T) (latches _ _ T)
      fun _ => ⟨rfl, rfl, rfl⟩)
  | read T | readarr T => exact .next (started _ _ _)
  | readpin idx T =>
    by_cases above : 11 < idx
    · rw [exec_readpin_of_out_of_range s T above, exec_readpin_of_out_of_range u T above]
      exact completions_agree (accepted _ _ _) _ _
    · simp only [exec, execReadpin, if_neg above]
      exact .next (started _ _ _)

theorem acceptWord_agree (w : CmdWord) (base : s.SameBase u) : ResultsAgree (acceptWord w s) (acceptWord w u) := by
  have accepted : (s.accept (opField w) (auxField w) (argField w)).SameBase (u.accept (opField w) (auxField w) (argField w)) :=
    base
  unfold acceptWord
  cases decode w with
  | ok i => exact exec_agree i base
  | error e => exact completions_agree accepted _ _

/-! ## The answer steps of a read -/

theorem readEnd_agree (r : ReadResult) (base : s.SameBase u) (latches : s.SameLatches u) :
    ResultsAgree (readEnd r s) (readEnd r u) := by
  obtain ⟨opl, auxl, -⟩ := latches
  have report : s.report r = u.report r := by rw [State.report, State.report, opl, auxl]
  rw [readEnd, readEnd, report]
  cases u.report r with
  | none => exact .fault _
  | some out => exact completions_agree base _ _

theorem syncAnswer_agree (ans : Answer) (h : s.Agree u) (sync : s.ph = .sync) :
    ResultsAgree (syncAnswer ans s) (syncAnswer ans u) := by
  have latches := h.latches (by simp [sync])
  cases ans with
  | timedOut => exact readEnd_agree _ h.base latches
  | ok => exact .fault _
  | dur d =>
    obtain ⟨-, -, tl⟩ := id latches
    have cpl := h.cpl (.inl sync)
    have n := h.n (.inl sync)
    simp only [syncAnswer, ← cpl, ← n]
    split
    · exact .next (agree_of_reading h.base h.response latches (.inr (.inl rfl)) rfl rfl rfl nofun nofun)
    split
    · exact readEnd_agree _ h.base latches
    · exact .next (agree_of_reading h.base h.response latches (.inl sync) h.ph
        (congrArg (fun T => some (Request.measure .low T)) tl) rfl (fun _ => rfl)
        fun bits => absurd (sync.symm.trans bits) nofun)

theorem dstartAnswer_agree (ans : Answer) (h : s.Agree u) (dstart : s.ph = .dstart) :
    ResultsAgree (dstartAnswer ans s) (dstartAnswer ans u) := by
  have latches := h.latches (by simp [dstart])
  cases ans with
  | timedOut => exact readEnd_agree _ h.base latches
  | dur d => exact .fault _
  | ok =>
    obtain ⟨-, -, tl⟩ := id latches
    exact .next (agree_of_reading h.base h.response latches (.inr (.inr rfl)) rfl (by rw [State.issue_req, tl, State.issue_req])
      (h.cpl (.inr (.inl dstart))) nofun fun _ => ⟨rfl, rfl⟩)

theorem bitsAnswer_agree (ans : Answer) (h : s.Agree u) (bits : s.ph = .bits) :
    ResultsAgree (bitsAnswer ans s) (bitsAnswer ans u) := by
  have latches := h.latches (by simp [bits])
  cases ans with
  | timedOut => exact readEnd_agree _ h.base latches
  | ok => exact .fault _
  | dur d =>
    obtain ⟨-, -, tl⟩ := id latches
    have cpl := h.cpl (.inr (.inr bits))
    have k := h.k bits
    have acc := h.acc bits
    simp only [bitsAnswer, ← cpl, ← k, ← acc]
    split
    · exact readEnd_agree _ h.base latches
    split
    · exact readEnd_agree _ h.base latches
    · exact .next (agree_of_reading h.base h.response latches (.inr (.inr bits)) h.ph
        (congrArg (fun T => some (Request.measure .high T)) tl) rfl
        (fun sync => absurd (bits.symm.trans sync) nofun) fun _ => ⟨rfl, rfl⟩)

/-! ## The answer step of a calibration -/

theorem endCalibration_agree (st : Status) (p : Option Nat) (base : s.SameBase u) :
    (s.endCalibration st p).Agree (u.endCalibration st p) := by
  cases p with
  | none => exact complete_agree base _ _
  | some v => exact complete_agree (setPeriod_sameBase _ base) _ _

theorem autoAttemptDone_agree (p : Option Nat) (base : s.SameBase u) (response : s.SameResponse u)
    (latches : s.SameLatches u) (counts : s.a = u.a ∧ s.kd = u.kd ∧ s.sum = u.sum) :
    (s.autoAttemptDone p).Agree (u.autoAttemptDone p) := by
  obtain ⟨a, kd, sum⟩ := counts
  have auxl := latches.2.1
  have counted : (s.countAttempt p).SameCounts (u.countAttempt p) := by
    cases p <;> exact fun _ => ⟨by simp [a], by simp [State.countAttempt, kd], by simp [State.countAttempt, sum]⟩
  rw [autoAttemptDone_eq, autoAttemptDone_eq, a]
  split
  · cases p <;> exact startBurst_agree base response latches counted
  · have outcome : finishOutcome (noFallback (s.countAttempt p).auxl) (s.countAttempt p).kd.toNat (s.countAttempt p).sum.toNat =
        finishOutcome (noFallback (u.countAttempt p).auxl) (u.countAttempt p).kd.toNat (u.countAttempt p).sum.toNat := by
      cases p <;> simp [State.countAttempt, auxl, kd, sum]
    rw [State.finish, State.finish, outcome]
    cases p <;> exact endCalibration_agree _ _ base

theorem attemptEnd_agree (r : Attempt) (base : s.SameBase u) (response : s.SameResponse u) (latches : s.SameLatches u)
    (counts : s.SameCounts u) : ResultsAgree (attemptEnd r s) (attemptEnd r u) := by
  have opl := latches.1
  by_cases isCal : s.opl = opcodeCal
  · rw [attemptEnd_of_cal r isCal, attemptEnd_of_cal r (opl.symm.trans isCal)]
    exact .next (endCalibration_agree _ _ base)
  by_cases isCalauto : s.opl = opcodeCalauto
  · rw [attemptEnd_of_calauto r isCalauto, attemptEnd_of_calauto r (opl.symm.trans isCalauto)]
    cases r with
    | det p => exact .next (autoAttemptDone_agree (some p) base response latches (counts isCalauto))
    | indet => exact .next (autoAttemptDone_agree none base response latches (counts isCalauto))
    | tmo => exact completions_agree base _ _
  · simp only [attemptEnd, ← opl, if_neg isCal, if_neg isCalauto]
    exact .fault _

theorem calsAnswer_agree (ans : Answer) (h : s.Agree u) (cals : s.ph = .cals) :
    ResultsAgree (calsAnswer ans s) (calsAnswer ans u) := by
  have latches := h.latches (by simp [cals])
  have counts := h.counts cals
  cases ans with
  | timedOut => exact attemptEnd_agree _ h.base h.response latches counts
  | ok => exact .fault _
  | dur d =>
    have tl := latches.2.2
    have n := h.n (.inr cals)
    have least : (s.recordSample d).minr = (u.recordSample d).minr := by
      simp only [State.recordSample, ← n]
      split_ifs with first <;> simp_all [h.minr cals]
    have greatest : (s.recordSample d).maxr = (u.recordSample d).maxr := by
      simp only [State.recordSample, ← n]
      split_ifs with first <;> simp_all [h.maxr cals]
    have count : (s.recordSample d).n = (u.recordSample d).n := congrArg (· + 1#4) n
    simp only [calsAnswer, least, greatest, count]
    split
    · exact .next (agree_of_calibrating h.base h.response latches counts cals (h.ph.symm.trans cals)
        (congrArg (fun T => some (Request.measure .low T)) tl) count fun _ => ⟨least, greatest⟩)
    · exact attemptEnd_agree _ h.base h.response latches counts

/-! ## The step -/

theorem phaseRequest_of_agree (h : s.Agree u) : s.phaseRequest = u.phaseRequest := by
  by_cases idle : s.ph = .idle
  · rw [State.phaseRequest, State.phaseRequest, ← h.ph, idle]
  have tl := h.tl idle
  by_cases dstart : s.ph = .dstart
  · rw [phaseRequest_of_dstart dstart, phaseRequest_of_dstart (h.ph.symm.trans dstart), h.cpl (.inr (.inl dstart))]
  · simp only [State.phaseRequest, ← h.ph, tl]
    split <;> simp_all

theorem answerStep_agree (ans : Answer) (h : s.Agree u) : ResultsAgree (answerStep ans s) (answerStep ans u) := by
  rw [answerStep, answerStep, ← phaseRequest_of_agree h, ← h.req]
  split
  · rw [← h.ph]
    cases phase : s.ph with
    | idle => exact .fault _
    | sync => exact syncAnswer_agree ans h phase
    | dstart => exact dstartAnswer_agree ans h phase
    | bits => exact bitsAnswer_agree ans h phase
    | cals => exact calsAnswer_agree ans h phase
  · exact .fault _

/-- The states take the same answer, if any, and agree after it. -/
theorem takeAnswer_agree (e : Edge) (h : s.Agree u) :
    (s.takeAnswer e = none ∧ u.takeAnswer e = none) ∨
    ∃ ans s' u', s.takeAnswer e = some (ans, s') ∧ u.takeAnswer e = some (ans, u') ∧ s'.Agree u' := by
  cases hreq : s.req with
  | none => exact .inl ⟨takeAnswer_none_of_req e hreq, takeAnswer_none_of_req e (h.req.symm.trans hreq)⟩
  | some r =>
    have hreq' := h.req.symm.trans hreq
    cases href : s.ref with
    | none =>
      have href' := h.ref.symm.trans href
      simp only [State.takeAnswer, hreq, hreq', href, href']
      cases e.ansValid with
      | false => exact .inl ⟨rfl, rfl⟩
      | true => exact .inr ⟨_, s, u, rfl, rfl, h⟩
    | some p =>
      exact .inr ⟨_, _, _, takeAnswer_of_ref e hreq href, takeAnswer_of_ref e hreq' (h.ref.symm.trans href),
        { h with ref := rfl }⟩

theorem coreStep_agree (e : Edge) (h : s.Agree u) : ResultsAgree (coreStep e s) (coreStep e u) := by
  rw [coreStep, coreStep, ← h.ph]
  split
  · split
    · exact acceptWord_agree e.cmd h.base
    · exact .next h
  · obtain ⟨hs, hu⟩ | ⟨ans, s', u', hs, hu, taken⟩ := takeAnswer_agree e h <;> rw [hs, hu]
    · exact .next h
    · exact answerStep_agree ans taken

theorem step_agree (h : s.Agree u) : ResultsAgree (step s) (step u) := by
  have edge := edge_of_inputs h.inputs
  have tick := tick_agree h
  rw [step, step, clockEdge, clockEdge, ← edge]
  split
  · exact .next (agree_of_justReset (resetStep_justReset _) (resetStep_justReset _) tick.inputs tick.edges tick.ref)
  · exact coreStep_agree s.edge tick

end

/-- Settles O58: the steps agree by `step_agree`, which covers both a next state and a stop. -/
theorem deadRegistersNeverMatter : Obligations.DeadRegistersNeverMatter := by
  intro s u h
  have agree := step_agree h
  refine ⟨outputs_of_agree h, fun t ht => ?_, fun r hr => ?_⟩
  · rw [ht] at agree
    generalize step u = out at agree ⊢
    cases agree with
    | next agree => exact ⟨_, rfl, agree⟩
  · rw [hr] at agree
    generalize step u = out at agree ⊢
    cases agree with
    | fault => rfl

end Sys2Proof.Machine
end

section
/-!
Statuses, pins, arrays, windows and the accumulator: the numbers of a response and of a read (`30_encoding.md` rule R55,
`10_state.md` rule R22, `42_read.md` rules R90 to R99).
-/

namespace Sys2Proof.Machine

/-! ## Status codes -/

/-- A status' code is its place in the table (`30_encoding.md` R55). -/
theorem code_toNat (st : Status) : st.code.toNat = st.ctorIdx := by cases st <;> rfl

theorem code_injective {st st' : Status} (h : st.code = st'.code) : st = st' := by
  rw [← Status.ofNat_ctorIdx st, ← code_toNat, h, code_toNat, Status.ofNat_ctorIdx]

/-- Settles O27: the response word is its two fields, and a code is its status' place in the table. -/
theorem statusCodesAndResponseFields : Obligations.StatusCodesAndResponseFields := by
  refine ⟨fun st p => ⟨rspStatus_rspWord st p, rspPayload_rspWord st p⟩, fun st st' => code_injective, fun st => ?_, ?_⟩
  · cases st <;> decide
  · decide

/-! ## The end of `CALAUTO` -/

/-- Settles O22: each of the three outcomes of `finish` completes by its rule; the average is a quotient of a sum no less than
its divisor. -/
theorem finishAveragesOrFallsBack : Obligations.FinishAveragesOrFallsBack := by
  intro s nf kd sum
  refine ⟨fun some_determined => ?_, fun some_determined lower => Nat.div_pos lower some_determined, ?_, ?_⟩
  · rw [finishOutcome, if_pos some_determined]
    rfl
  · rintro rfl rfl
    rfl
  · rintro rfl rfl
    rfl

/-! ## Windows -/

section
variable {c d : Nat}

/-- Of a positive period, the windows of 1, of 0 and of a sync pulse are apart (`42_read.md` section 4). -/
theorem windows_apart (hc : 1 ≤ c) :
    ¬ (OneWindow c d ∧ ZeroWindow c d) ∧ (SyncWindow c d → ¬ OneWindow c d ∧ ¬ ZeroWindow c d) := by
  simp only [OneWindow, ZeroWindow, SyncWindow, InWindow, Config.zeroMult, Config.syncRatio]
  omega

theorem bitOf_eq_some_true_iff : bitOf c d = some true ↔ OneWindow c d := by
  unfold bitOf
  split_ifs with one
  · exact iff_of_true rfl one
  · exact iff_of_false (by simp) one
  · exact iff_of_false (by simp) one

theorem bitOf_eq_some_false_iff (hc : 1 ≤ c) : bitOf c d = some false ↔ ZeroWindow c d := by
  have apart := (windows_apart (d := d) hc).1
  unfold bitOf
  split_ifs with one zero
  · simpa using fun zero => apart ⟨one, zero⟩
  · simpa using zero
  · simpa using zero

end

/-- Settles O29: the windows are apart, so outside both there is no bit and inside one it is the bit of that window. -/
theorem deadZoneIsNoBit : Obligations.DeadZoneIsNoBit := by
  intro c d hc
  obtain ⟨apart, syncApart⟩ := windows_apart (d := d) hc
  have noBit (outside : ¬ OneWindow c d ∧ ¬ ZeroWindow c d) : bitOf c d = none := bitOf_of_neither outside.1 outside.2
  refine ⟨apart, syncApart, fun above below => noBit ?_, fun below => noBit ?_, fun above => noBit ?_, bitOf_eq_some_true_iff,
    bitOf_eq_some_false_iff hc⟩
  all_goals
    simp only [OneWindow, ZeroWindow, InWindow, Config.zeroMult]
    omega

/-! ## Pins and arrays -/

/-- Element `j` of the array is `word[11 - j]` (`10_state.md` R22). -/
theorem getElem?_arrayOf (w : DataWord) {j : Nat} (inArray : j ≤ 11) : (arrayOf w)[j]? = some (w.getLsbD (11 - j)) := by
  rw [arrayOf_eq_map_range, List.getElem?_map, List.getElem?_range (by omega), Option.map_some]

/-- Settles O32: the array runs through the word from its top bit down. -/
theorem pinAndArrayIndicesRunOpposite : Obligations.PinAndArrayIndicesRunOpposite := by
  refine fun w => ⟨rfl, fun _ _ => rfl, fun j inArray => getElem?_arrayOf w inArray, fun i inWord => ?_⟩
  rw [getElem?_arrayOf w (Nat.sub_le 11 i), Nat.sub_sub_self inWord, pinBit]

/-- A bit as a payload. -/
theorem bitPayload_toNat (b : Bool) : (if b then 1#32 else 0#32).toNat = b.toNat := by cases b <;> rfl

/-- A bit of a word as a number. -/
theorem getLsbD_toNat {n : Nat} (x : BitVec n) (i : Nat) : (x.getLsbD i).toNat = x.toNat / 2 ^ i % 2 :=
  Nat.toNat_testBit x.toNat i

/-- What `READPIN` reports of a word is the pin's bit, as a number. -/
theorem readpinReport_ok_toNat (i : Nat) (w : DataWord) : (readpinReport i (.ok w)).2.toNat = w.toNat / 2 ^ i % 2 := by
  rw [readpinReport, bitPayload_toNat, pinBit, getLsbD_toNat]

/-- Settles O33: the payloads by their bits, and each failure by the tables of the reports. -/
theorem accessorsAgreeWithRead : Obligations.AccessorsAgreeWithRead := by
  intro r
  refine ⟨?_, fun failed => ⟨?_, ?_, ?_, fun i => readpinReport_of_failure i failed, readarrReport_of_failure failed⟩⟩
  · rintro w rfl
    have widened : (readReport (.ok w)).2.toNat = w.toNat := BitVec.toNat_setWidth_of_le (by decide)
    refine ⟨rfl, widened, fun i _ => ⟨rfl, readpinReport_ok_toNat i w⟩, rfl, fun j inArray => ?_⟩
    have element : (packBits (arrayOf w)).getLsbD j = w.getLsbD (11 - j) := by
      rw [getLsbD_packBits_arrayOf, decide_eq_true (by omega), Bool.true_and]
    rw [readpinReport_ok_toNat, readarrReport, ← getLsbD_toNat, ← getLsbD_toNat, element]
  all_goals
    rintro rfl
    rfl

/-! ## The accumulator -/

/-- The number the bits write, the first the most significant. -/
def numberOf (bs : List Bool) : Nat := bs.foldl (fun v b => 2 * v + (if b then 1 else 0)) 0

theorem numberOf_concat (bs : List Bool) (b : Bool) : numberOf (bs ++ [b]) = 2 * numberOf bs + (if b then 1 else 0) := by
  rw [numberOf, List.foldl_append]
  rfl

theorem numberOf_lt (bs : List Bool) : numberOf bs < 2 ^ bs.length := by
  induction bs using List.reverseRecOn with
  | nil => decide
  | append_singleton bs b ih =>
    rw [numberOf_concat, List.length_append, List.length_singleton, pow_succ]
    split <;> omega

theorem foldl_shiftIn_concat (bs : List Bool) (b : Bool) :
    (bs ++ [b]).foldl shiftIn 0#12 = shiftIn (bs.foldl shiftIn 0#12) b := List.foldl_append

/-- Up to twelve bits the accumulator is the number they write (`42_read.md` R99). -/
theorem foldl_shiftIn_toNat {bs : List Bool} (room : bs.length ≤ 12) : (bs.foldl shiftIn 0#12).toNat = numberOf bs := by
  induction bs using List.reverseRecOn with
  | nil => rfl
  | append_singleton bs b ih =>
    rw [List.length_append, List.length_singleton] at room
    have held := ih (by omega)
    have small : numberOf bs < 2 ^ 11 := (numberOf_lt bs).trans_le (Nat.pow_le_pow_right (by decide) (by omega))
    rw [foldl_shiftIn_concat, shiftIn_toNat b (held ▸ small), held, numberOf_concat]

theorem getLsbD_shiftIn_zero (acc : DataWord) (b : Bool) : (shiftIn acc b).getLsbD 0 = b := by
  cases b <;> simp [shiftIn]

theorem getLsbD_shiftIn_succ (acc : DataWord) (b : Bool) {j : Nat} (inWord : j + 1 < 12) :
    (shiftIn acc b).getLsbD (j + 1) = acc.getLsbD j := by
  have high : (if b then 1#12 else 0#12).getLsbD (j + 1) = false := by cases b <;> simp [BitVec.getLsbD_one]
  rw [shiftIn, BitVec.getLsbD_or, high, Bool.or_false, BitVec.getLsbD_shiftLeft]
  simp [inWord]

/-- Bit `i` received is bit `length - 1 - i` of the accumulator (`42_read.md` R99). -/
theorem getLsbD_foldl_shiftIn {bs : List Bool} (room : bs.length ≤ 12) (i : Nat) (h : i < bs.length) :
    (bs.foldl shiftIn 0#12).getLsbD (bs.length - 1 - i) = bs[i] := by
  induction bs using List.reverseRecOn with
  | nil => simp at h
  | append_singleton bs b ih =>
    rw [List.length_append, List.length_singleton] at room h
    rw [foldl_shiftIn_concat, List.length_append, List.length_singleton, Nat.add_sub_cancel]
    by_cases last : i = bs.length
    · subst last
      rw [Nat.sub_self, getLsbD_shiftIn_zero, List.getElem_concat_length rfl]
    · have earlier : i < bs.length := by omega
      rw [show bs.length - i = bs.length - 1 - i + 1 by omega, getLsbD_shiftIn_succ _ _ (by omega), ih (by omega) earlier,
        List.getElem_append_left earlier]

/-- Settles O31: the number by induction on the last bit, and the bits in the same way. -/
theorem accumulatorIsMostSignificantFirst : Obligations.AccumulatorIsMostSignificantFirst :=
  fun _ room => ⟨foldl_shiftIn_toNat room, getLsbD_foldl_shiftIn room⟩

end Sys2Proof.Machine
end

section
/-!
A read and a `CALAUTO` as functions of their answers: how many they consume, the ideal frame, and periods too long for sync
(`41_calibrate.md` section 4, `42_read.md` section 4).
-/

namespace Sys2Proof.Machine

/-! ## The ideal frame -/

/-- The high pulse of a bit at a period of `P` whole microseconds. -/
def idealPulse (P : Nat) (b : Bool) : Answer := .dur (BitVec.ofNat 32 (if b then P else 2 * P))

/-- The ideal pulse of a bit is that bit. -/
theorem bitOf_idealPulse {P : Nat} (b : Bool) (positive : 1 ≤ P) (fits : 36 * P < 2 ^ 32) :
    bitOf (2 * P) (BitVec.ofNat 32 (if b then P else 2 * P)).toNat = some b := by
  have inWord : (BitVec.ofNat 32 (if b then P else 2 * P)).toNat = if b then P else 2 * P := by
    rw [BitVec.toNat_ofNat, Nat.mod_eq_of_lt (by split <;> omega)]
  rw [inWord]
  cases b with
  | true =>
    rw [bitOf_eq_some_true_iff, if_pos rfl]
    simp only [OneWindow, InWindow]
    omega
  | false =>
    rw [bitOf_eq_some_false_iff (by omega), if_neg Bool.false_ne_true]
    simp only [ZeroWindow, InWindow, Config.zeroMult]
    omega

/-- Ideal pulses are received as their bits. -/
theorem receiveBits_idealPulses {P : Nat} (positive : 1 ≤ P) (fits : 36 * P < 2 ^ 32) (bs : List Bool) (acc : DataWord)
    (rest : List Answer) :
    receiveBits (2 * P) bs.length acc (bs.map (idealPulse P) ++ rest) = some (.ok (bs.foldl shiftIn acc), rest) := by
  induction bs generalizing acc with
  | nil => rfl
  | cons b bs ih =>
    rw [List.map_cons, List.cons_append, idealPulse, List.length_cons, receiveBits, bitOf_idealPulse b positive fits]
    exact ih (shiftIn acc b)

/-- The ideal sync pulse is one. -/
theorem syncWindow_ideal {P : Nat} (fits : 36 * P < 2 ^ 32) : SyncWindow (2 * P) (BitVec.ofNat 32 (36 * P)).toNat := by
  rw [BitVec.toNat_ofNat, Nat.mod_eq_of_lt fits]
  simp only [SyncWindow, InWindow, Config.syncRatio]
  omega

/-- Settles O34: the sync pulse is found at once, and the twelve pulses are received as their bits. -/
theorem idealFrameDecodes : Obligations.IdealFrameDecodes := by
  intro P bs rest positive fits twelve
  refine ⟨bs.foldl shiftIn 0#12, ?_, fun i h => ?_⟩
  · rw [decodeFrame, seekSync, if_pos (syncWindow_ideal fits)]
    have received := receiveBits_idealPulses positive fits bs 0#12 rest
    rw [twelve] at received
    exact received
  · have bit := getLsbD_foldl_shiftIn twelve.le i h
    rwa [twelve] at bit

/-! ## What a read consumes -/

/-- The search for sync consumes up to one answer for each try, and at least one if there is a try. -/
theorem seekSync_consumes {c tries : Nat} {script rest : List Answer} {found : Bool}
    (h : seekSync c tries script = some (found, rest)) :
    ∃ used, script = used ++ rest ∧ used.length ≤ tries ∧ (0 < tries → 1 ≤ used.length) := by
  induction tries generalizing script with
  | zero =>
    cases h
    exact ⟨[], rfl, Nat.le_refl _, nofun⟩
  | succ tries ih =>
    match script with
    | [] | .ok :: _ => cases h
    | .timedOut :: script =>
      cases h
      exact ⟨[.timedOut], rfl, by simp, by simp⟩
    | .dur d :: script =>
      rw [seekSync] at h
      split at h
      · cases h
        exact ⟨[.dur d], rfl, by simp, by simp⟩
      · obtain ⟨used, rfl, most, -⟩ := ih h
        exact ⟨.dur d :: used, rfl, by simpa using most, by simp⟩

/-- The bits are one answer each; a malformed pulse is the last answer consumed. -/
theorem receiveBits_consumes {c left : Nat} {acc : DataWord} {script rest : List Answer} {r : ReadResult}
    (h : receiveBits c left acc script = some (r, rest)) :
    ∃ used, script = used ++ rest ∧ used.length ≤ left ∧
      ((∃ w, r = .ok w ∧ used.length = left) ∨ (r = .malformedDataPulse ∧ 1 ≤ used.length)) := by
  induction left generalizing acc script with
  | zero =>
    cases h
    exact ⟨[], rfl, Nat.le_refl _, .inl ⟨_, rfl, rfl⟩⟩
  | succ left ih =>
    match script with
    | [] | .ok :: _ => cases h
    | .timedOut :: script =>
      cases h
      exact ⟨[.timedOut], rfl, by simp, .inr ⟨rfl, by simp⟩⟩
    | .dur d :: script =>
      rw [receiveBits] at h
      split at h
      · obtain ⟨used, rfl, most, hend⟩ := ih h
        refine ⟨.dur d :: used, rfl, by simpa using most, ?_⟩
        obtain ⟨w, hw, all⟩ | ⟨malformed, -⟩ := hend
        · exact .inl ⟨w, hw, by simpa using all⟩
        · exact .inr ⟨malformed, by simp⟩
      · cases h
        exact ⟨[.dur d], rfl, by simp, .inr ⟨rfl, by simp⟩⟩

/-- What follows the sync pulse: the data start, then the bits. -/
theorem awaitData_consumes {c : Nat} {script rest : List Answer} {r : ReadResult} (h : awaitData c script = some (r, rest)) :
    ∃ used, script = used ++ rest ∧
      ((r = .syncLostAfterPreamble ∧ used.length = 1) ∨ (∃ w, r = .ok w ∧ used.length = 13) ∨
        (r = .malformedDataPulse ∧ 2 ≤ used.length ∧ used.length ≤ 13)) := by
  match script with
  | [] | .dur _ :: _ => cases h
  | .timedOut :: script =>
    cases h
    exact ⟨[.timedOut], rfl, .inl ⟨rfl, rfl⟩⟩
  | .ok :: script =>
    obtain ⟨used, rfl, most, ⟨w, hw, all⟩ | ⟨malformed, some_pulse⟩⟩ := receiveBits_consumes h
    · exact ⟨.ok :: used, rfl, .inr (.inl ⟨w, hw, by rw [List.length_cons, all]⟩)⟩
    · exact ⟨.ok :: used, rfl, .inr (.inr ⟨malformed, Nat.succ_le_succ some_pulse, Nat.succ_le_succ most⟩)⟩

/-- A decode ends in the search for sync, or finds the pulse and goes on (`42_read.md` R102). -/
theorem decodeFrame_cases {c : Nat} {script rest : List Answer} {r : ReadResult}
    (h : decodeFrame c script = some (r, rest)) :
    (seekSync c Config.syncTries script = some (false, rest) ∧ r = .timeoutWaitingForSync) ∨
    (∃ mid, seekSync c Config.syncTries script = some (true, mid) ∧ awaitData c mid = some (r, rest)) := by
  unfold decodeFrame at h
  split at h
  next mid found => exact .inr ⟨mid, found, h⟩
  next mid missed =>
    cases h
    exact .inl ⟨missed, rfl⟩
  · cases h

/-- Settles O35: the answers of the search, at least one, and those of the data. -/
theorem decodeAnswerCounts : Obligations.DecodeAnswerCounts := by
  intro c script left r h
  obtain ⟨missed, rfl⟩ | ⟨mid, found, data⟩ := decodeFrame_cases h
  · obtain ⟨used, hused, most, least⟩ := seekSync_consumes missed
    exact ⟨used, hused, least (by decide), most⟩
  · obtain ⟨sought, rfl, most, least⟩ := seekSync_consumes found
    obtain ⟨used, rfl, hend⟩ := awaitData_consumes data
    refine ⟨sought ++ used, (List.append_assoc ..).symm, ?_⟩
    have least := least (by decide)
    have most : sought.length ≤ 13 := most
    rw [List.length_append]
    obtain ⟨rfl, one⟩ | ⟨w, rfl, all⟩ | ⟨rfl, some_pulse, bound⟩ := hend
    all_goals
      simp only
      omega

/-- Settles O37: no duration is long enough, so the search never succeeds. -/
theorem tooLongPeriodNeverFindsSync : Obligations.TooLongPeriodNeverFindsSync := by
  intro c tooLong
  have noSync (d : Word) : ¬ SyncWindow c d.toNat := by
    have := d.isLt
    simp only [SyncWindow, InWindow, Config.syncRatio]
    omega
  have missed (tries : Nat) (script rest : List Answer) : seekSync c tries script ≠ some (true, rest) := by
    induction tries generalizing script with
    | zero => simp [seekSync]
    | succ tries ih =>
      match script with
      | [] | .ok :: _ | .timedOut :: _ => simp [seekSync]
      | .dur d :: script =>
        rw [seekSync, if_neg (noSync d)]
        exact ih script
  refine ⟨noSync, fun script left r h => ?_⟩
  obtain ⟨-, hr⟩ | ⟨mid, found, -⟩ := decodeFrame_cases h
  · exact hr
  · exact absurd found (missed _ _ _)

/-! ## What a calibration consumes -/

/-- The answers end at a `TimedOut`, the only one among them. -/
def EndsAtTimeout (used : List Answer) : Prop := ∃ before, used = before ++ [.timedOut] ∧ .timedOut ∉ before

theorem EndsAtTimeout.append {before used : List Answer} (noTimeout : .timedOut ∉ before) (h : EndsAtTimeout used) :
    EndsAtTimeout (before ++ used) := by
  obtain ⟨more, rfl, noTimeout'⟩ := h
  exact ⟨before ++ more, (List.append_assoc ..).symm, by simp [noTimeout, noTimeout']⟩

/-- A burst is one answer for each sample, or ends at a timeout. -/
theorem takeBurst_consumes {left : Nat} {script rest : List Answer} {samples : Option (List Nat)}
    (h : takeBurst left script = some (samples, rest)) :
    ∃ used, script = used ++ rest ∧
      ((∃ ds, samples = some ds ∧ used.length = left ∧ .timedOut ∉ used) ∨
        (samples = none ∧ used.length ≤ left ∧ EndsAtTimeout used)) := by
  induction left generalizing script samples with
  | zero =>
    cases h
    exact ⟨[], rfl, .inl ⟨[], rfl, rfl, by simp⟩⟩
  | succ left ih =>
    match script with
    | [] | .ok :: _ => cases h
    | .timedOut :: script =>
      cases h
      exact ⟨[.timedOut], rfl, .inr ⟨rfl, by simp, [], rfl, by simp⟩⟩
    | .dur d :: script =>
      rw [takeBurst] at h
      split at h
      next burst =>
        cases h
        obtain ⟨used, rfl, ⟨ds, -, all, noTimeout⟩ | ⟨none_taken, -⟩⟩ := ih burst
        · exact ⟨.dur d :: used, rfl, .inl ⟨_, rfl, by simp [all], by simp [noTimeout]⟩⟩
        · cases none_taken
      next burst =>
        cases h
        obtain ⟨used, rfl, ⟨ds, some_taken, -⟩ | ⟨-, most, ends⟩⟩ := ih burst
        · cases some_taken
        · exact ⟨.dur d :: used, rfl, .inr ⟨rfl, by simpa using most, ends.append (before := [.dur d]) (by simp)⟩⟩
      · cases h

/-- An attempt is its burst: thirteen samples classified, or a timeout (`41_calibrate.md` R76). -/
theorem calAttempt_cases {script rest : List Answer} {r : Attempt} (h : calAttempt script = some (r, rest)) :
    (∃ ds, takeBurst Config.calSamples script = some (some ds, rest) ∧ r = classify (leastOf ds) (greatestOf ds)) ∨
    (takeBurst Config.calSamples script = some (none, rest) ∧ r = .tmo) := by
  unfold calAttempt at h
  split at h
  next ds _ burst =>
    cases h
    exact .inl ⟨ds, burst, rfl⟩
  next burst =>
    cases h
    exact .inr ⟨burst, rfl⟩
  · cases h

theorem classify_ne_tmo (mn mx : Nat) : classify mn mx ≠ .tmo := by
  unfold classify
  split_ifs <;> simp

theorem calAttempt_consumes {script rest : List Answer} {r : Attempt} (h : calAttempt script = some (r, rest)) :
    ∃ used, script = used ++ rest ∧
      ((r ≠ .tmo ∧ used.length = 13 ∧ .timedOut ∉ used) ∨ (r = .tmo ∧ used.length ≤ 13 ∧ EndsAtTimeout used)) := by
  obtain ⟨ds, burst, rfl⟩ | ⟨burst, rfl⟩ := calAttempt_cases h
  · obtain ⟨used, hused, ⟨_, -, all, noTimeout⟩ | ⟨none_taken, -⟩⟩ := takeBurst_consumes burst
    · exact ⟨used, hused, .inl ⟨classify_ne_tmo _ _, all, noTimeout⟩⟩
    · cases none_taken
  · obtain ⟨used, hused, ⟨_, some_taken, -⟩ | ⟨-, most, ends⟩⟩ := takeBurst_consumes burst
    · cases some_taken
    · exact ⟨used, hused, .inr ⟨rfl, most, ends⟩⟩

/-- The counts after an attempt that did not time out (`41_calibrate.md` R83). -/
def countedPeriod : Option Nat → Nat × Nat → Nat × Nat
  | some p, (kd, sum) => (kd + 1, sum + p)
  | none, counts => counts

/-- An attempt of `calAuto` ends it at a timeout; otherwise the loop goes on with the attempt counted (`41_calibrate.md` R83). -/
theorem autoLoop_cases {nf : Bool} {left kd sum : Nat} {script rest : List Answer} {out : Status × Option Nat}
    (h : autoLoop nf (left + 1) kd sum script = some (out, rest)) :
    (calAttempt script = some (.tmo, rest) ∧ out = (.calTimeout, none)) ∨
    ∃ p mid, calAttempt script = some (p.elim .indet .det, mid) ∧
      autoLoop nf left (countedPeriod p (kd, sum)).1 (countedPeriod p (kd, sum)).2 mid = some (out, rest) := by
  rw [autoLoop] at h
  split at h
  next p mid attempt => exact .inr ⟨some p, mid, attempt, h⟩
  next mid attempt => exact .inr ⟨none, mid, attempt, h⟩
  next attempt =>
    cases h
    exact .inl ⟨attempt, rfl⟩
  · cases h

/-- `calAuto` consumes thirteen answers for each attempt, or ends at a timeout. -/
theorem autoLoop_consumes {nf : Bool} {left kd sum : Nat} {script rest : List Answer} {out : Status × Option Nat}
    (h : autoLoop nf left kd sum script = some (out, rest)) :
    ∃ used, script = used ++ rest ∧
      ((used.length = 13 * left ∧ .timedOut ∉ used) ∨
        (used.length ≤ 13 * left ∧ out = (.calTimeout, none) ∧ EndsAtTimeout used)) := by
  induction left generalizing kd sum script with
  | zero =>
    cases h
    exact ⟨[], rfl, .inl ⟨rfl, by simp⟩⟩
  | succ left ih =>
    obtain ⟨attempt, hout⟩ | ⟨p, mid, attempt, loop⟩ := autoLoop_cases h
    · obtain ⟨used, hused, ⟨noTmo, -⟩ | ⟨-, most, ends⟩⟩ := calAttempt_consumes attempt
      · exact absurd rfl noTmo
      · exact ⟨used, hused, .inr ⟨by omega, hout, ends⟩⟩
    · obtain ⟨first, rfl, ⟨-, all, noTimeout⟩ | ⟨tmo, -⟩⟩ := calAttempt_consumes attempt
      · obtain ⟨used, rfl, hend⟩ := ih loop
        refine ⟨first ++ used, (List.append_assoc ..).symm, ?_⟩
        rw [List.length_append]
        obtain ⟨all', noTimeout'⟩ | ⟨most, hout, ends⟩ := hend
        · exact .inl ⟨by omega, by simp [noTimeout, noTimeout']⟩
        · exact .inr ⟨by omega, hout, ends.append noTimeout⟩
      · cases p <;> cases tmo

/-- Settles O36: five attempts of thirteen answers, unless one ends at a timeout. -/
theorem calautoStopsAtTheFirstTimeout : Obligations.CalautoStopsAtTheFirstTimeout := by
  intro nf script left out h
  obtain ⟨used, hused, ⟨all, noTimeout⟩ | ⟨most, hout, before, hbefore, noTimeout⟩⟩ := autoLoop_consumes h
  · exact ⟨used, hused, fun _ => all, fun timeout => absurd timeout noTimeout⟩
  · exact ⟨used, hused, fun noTimeout => absurd (by simp [hbefore]) noTimeout,
      fun _ => ⟨most, hout, before, hbefore, noTimeout⟩⟩

end Sys2Proof.Machine
end

section
/-!
The answers of the reference Pulse Source on any line: which they are, when they return, and the step that takes them
(`20_memory.md` rules R43 to R46).
-/

namespace Sys2Proof.Machine

section
variable {L : Nat → Level} {level : Level} {T t0 : Nat}

/-! ## `WAIT` -/

theorem waitAnswer_of_sight {s : Nat} (issued : t0 ≤ s) (sight : L s = level) (first : ∀ u, t0 ≤ u → u < s → L u ≠ level)
    (inTime : s - t0 ≤ T) : waitAnswer L level T t0 = (.ok, s) := by
  have found : leastFrom (fun s => L s = level) (T + 1) t0 = some s :=
    leastFrom_eq_some.mpr ⟨issued, by omega, decide_eq_true sight, fun u hu hs => decide_eq_false (first u hu hs)⟩
  rw [waitAnswer, found]

theorem waitAnswer_of_unseen (unseen : ∀ u, t0 ≤ u → u ≤ t0 + T → L u ≠ level) :
    waitAnswer L level T t0 = (.timedOut, t0 + T + 1) := by
  have nothing : leastFrom (fun s => L s = level) (T + 1) t0 = none :=
    leastFrom_eq_none.mpr fun u hu hT => decide_eq_false (unseen u hu (by omega))
  rw [waitAnswer, nothing]

/-- The two answers to a `WAIT`, by whether the level is seen in time (`20_memory.md` R45). -/
theorem waitAnswer_cases (L : Nat → Level) (level : Level) (T t0 : Nat) :
    (∃ s, t0 ≤ s ∧ s ≤ t0 + T ∧ waitAnswer L level T t0 = (.ok, s)) ∨ waitAnswer L level T t0 = (.timedOut, t0 + T + 1) := by
  rw [waitAnswer]
  cases hs : leastFrom (fun s => L s = level) (T + 1) t0 with
  | none => exact .inr rfl
  | some s =>
    obtain ⟨issued, inTime, -⟩ := leastFrom_eq_some.mp hs
    exact .inl ⟨s, issued, by omega, rfl⟩

/-! ## `MEASURE` -/

theorem measureAnswer_of_no_start (noStart : ∀ u, t0 < u → u ≤ t0 + T → ¬ StartsPulse L level u) :
    measureAnswer L level T t0 = (.timedOut, t0 + T + 1) := by
  have nothing : leastFrom (fun s => StartsPulse L level s) T (t0 + 1) = none :=
    leastFrom_eq_none.mpr fun u hu hT => decide_eq_false (noStart u hu (by omega))
  rw [measureAnswer, nothing]

/-- The first pulse after the issue starts at `s`, in time. -/
structure FirstStart (L : Nat → Level) (level : Level) (T t0 s : Nat) : Prop where
  later : t0 < s
  inTime : s ≤ t0 + T
  starts : StartsPulse L level s
  first : ∀ u, t0 < u → u < s → ¬ StartsPulse L level u

theorem FirstStart.found {s : Nat} (h : FirstStart L level T t0 s) :
    leastFrom (fun s => StartsPulse L level s) T (t0 + 1) = some s :=
  leastFrom_eq_some.mpr ⟨h.later, by have := h.inTime; omega, decide_eq_true h.starts,
    fun u hu hs => decide_eq_false (h.first u hu hs)⟩

theorem measureAnswer_of_end {s e : Nat} (start : FirstStart L level T t0 s) (later : s < e) (ended : L e ≠ level)
    (whole : ∀ u, s < u → u < e → L u = level) (inTime : e - s ≤ T) :
    measureAnswer L level T t0 = (.dur (BitVec.ofNat 32 (e - s)), e) := by
  have found : leastFrom (fun e => L e ≠ level) T (s + 1) = some e :=
    leastFrom_eq_some.mpr ⟨later, by omega, decide_eq_true ended,
      fun u hu he => decide_eq_false (not_not.mpr (whole u hu he))⟩
  simp only [measureAnswer, start.found, found]

theorem measureAnswer_of_no_end {s : Nat} (start : FirstStart L level T t0 s)
    (noEnd : ∀ u, s < u → u ≤ s + T → L u = level) : measureAnswer L level T t0 = (.timedOut, s + T + 1) := by
  have nothing : leastFrom (fun e => L e ≠ level) T (s + 1) = none :=
    leastFrom_eq_none.mpr fun u hu hT => decide_eq_false (not_not.mpr (noEnd u hu (by omega)))
  simp only [measureAnswer, start.found, nothing]

/-- The three answers to a `MEASURE`: no pulse starts in time, the pulse does not end in time, or it is measured
(`20_memory.md` R46). -/
theorem measureAnswer_cases (L : Nat → Level) (level : Level) (T t0 : Nat) :
    measureAnswer L level T t0 = (.timedOut, t0 + T + 1) ∨
    ∃ s, FirstStart L level T t0 s ∧
      (measureAnswer L level T t0 = (.timedOut, s + T + 1) ∨
        ∃ e, s < e ∧ e ≤ s + T ∧ L e ≠ level ∧ (∀ u, s < u → u < e → L u = level) ∧
          measureAnswer L level T t0 = (.dur (BitVec.ofNat 32 (e - s)), e)) := by
  rw [measureAnswer]
  cases hs : leastFrom (fun s => StartsPulse L level s) T (t0 + 1) with
  | none => exact .inl rfl
  | some s =>
    obtain ⟨later, inTime, starts, first⟩ := leastFrom_eq_some.mp hs
    refine .inr ⟨s, ⟨later, by omega, of_decide_eq_true starts, fun u hu hs => of_decide_eq_false (first u hu hs)⟩, ?_⟩
    cases he : leastFrom (fun e => L e ≠ level) T (s + 1) with
    | none => exact .inl (by simp only [he])
    | some e =>
      obtain ⟨later', inTime', ended, whole⟩ := leastFrom_eq_some.mp he
      exact .inr ⟨e, later', by omega, of_decide_eq_true ended,
        fun u hu he => not_not.mp (of_decide_eq_false (whole u hu he)), by simp only [he]⟩

/-- Settles O44: each answer returns at the level, at the end of a pulse, or just after a search of `T` positions. -/
theorem lineAnswersReturnInBoundedTime : Obligations.LineAnswersReturnInBoundedTime := by
  intro L level T t0
  have wait : t0 ≤ (waitAnswer L level T t0).2 ∧ (waitAnswer L level T t0).2 ≤ t0 + T + 1 := by
    obtain ⟨s, issued, inTime, h⟩ | h := waitAnswer_cases L level T t0 <;> rw [h] <;> simp only <;> omega
  have measure : t0 ≤ (measureAnswer L level T t0).2 ∧ (measureAnswer L level T t0).2 ≤ t0 + 2 * T + 2 := by
    obtain h | ⟨s, ⟨later, inTime, -, -⟩, h | ⟨e, later', inTime', -, -, h⟩⟩ := measureAnswer_cases L level T t0 <;>
      rw [h] <;> simp only <;> omega
  exact ⟨wait.1, wait.2, measure⟩

/-- Settles O45: within the measured pulse the line keeps the level, so no pulse starts there, and none starts at its end. -/
theorem consecutiveMeasuresSkipNoPulse : Obligations.ConsecutiveMeasuresSkipNoPulse := by
  intro L level T t0 e d fits h
  obtain h' | ⟨s, ⟨later, inTime, starts, first⟩, h' | ⟨e', later', inTime', ended, whole, h'⟩⟩ :=
    measureAnswer_cases L level T t0 <;> cases h'.symm.trans h
  have held (u : Nat) (hs : s ≤ u) (he : u < e) : L u = level := by
    obtain rfl | after := hs.eq_or_lt
    · exact starts.1
    · exact whole u after he
  refine ⟨s, later, later', starts, fun u issued hu other => ?_, held, ended, ?_⟩
  · obtain before | after := Nat.lt_or_gt_of_ne other
    · exact first u issued before
    · rintro ⟨-, into⟩
      exact into (held (u - 1) (by omega) (by omega))
  · rw [BitVec.toNat_ofNat, Nat.mod_eq_of_lt (by omega)]

end

/-! ## The step -/

/-- An answer of the reference source fits its request. -/
theorem RefSource.answer_fits (p : RefSource) (r : Request) :
    (∃ l T, r = .wait l T ∧ ((p.answer r).1 = .timedOut ∨ (p.answer r).1 = .ok)) ∨
    (∃ l T, r = .measure l T ∧ ((p.answer r).1 = .timedOut ∨ ∃ d, (p.answer r).1 = .dur d)) := by
  cases r with
  | wait l T => exact .inl ⟨l, T, rfl, waitAnswer_kind _ _ _ _⟩
  | measure l T => exact .inr ⟨l, T, rfl, measureAnswer_kind _ _ _ _⟩

/-- A busy core with the reference source attached takes its answer at the next edge (`20_memory.md` R43; log 9). -/
theorem step_of_refSource {s : State} {p : RefSource} {r : Request} (busy : s.ph ≠ .idle) (noReset : s.edge.rst = false)
    (href : s.ref = some p) (hreq : s.req = some r) :
    step s = answerStep (p.answer r).1 { s.tick with ref := some (p.moveTo (p.answer r).2) } :=
  step_of_answered busy hreq (.inr ⟨p, r, href, hreq, noReset, rfl, rfl⟩) (p.answer_fits r)

/-- Settles O42: the search finds the first sight of the level if it is in range; the step is the one of any attached source. -/
theorem waitAnswersTheFirstSightOfTheLevel : Obligations.WaitAnswersTheFirstSightOfTheLevel := by
  refine ⟨fun L level T t0 => ⟨fun s issued sight first => ⟨?_, fun late => ?_⟩, fun never => ?_⟩,
    fun s p level T busy noReset href hreq => step_of_refSource busy noReset href hreq⟩
  · exact waitAnswer_of_sight issued sight first
  · exact waitAnswer_of_unseen fun u hu hT => first u hu (by omega)
  · exact waitAnswer_of_unseen fun u hu _ => never u hu

/-- Where a pulse starts after the issue, there is a first that does. -/
theorem exists_first_start {L : Nat → Level} {level : Level} {t0 u : Nat} (later : t0 < u) (starts : StartsPulse L level u) :
    ∃ s, t0 < s ∧ s ≤ u ∧ StartsPulse L level s ∧ ∀ v, t0 < v → v < s → ¬ StartsPulse L level v := by
  classical
  have some_start : ∃ s, t0 < s ∧ StartsPulse L level s := ⟨u, later, starts⟩
  obtain ⟨later', starts'⟩ := Nat.find_spec some_start
  exact ⟨Nat.find some_start, later', Nat.find_min' some_start ⟨later, starts⟩, starts',
    fun v hv hs starts => Nat.find_min some_start hs ⟨hv, starts⟩⟩

/-- Settles O43: without a first start in time the search finds none; with one, the end decides. -/
theorem measureAnswersTheNextWholePulse : Obligations.MeasureAnswersTheNextWholePulse := by
  refine ⟨fun L level T t0 IsStart isStart => ⟨fun noStart => ?_, fun s start => ?_⟩,
    fun s p level T busy noReset href hreq => step_of_refSource busy noReset href hreq⟩
  · refine measureAnswer_of_no_start fun u later _ starts => ?_
    obtain ⟨s, later', -, ⟨sight, into⟩, first⟩ := exists_first_start later starts
    exact noStart s ((isStart s).mpr ⟨later', sight, into, first⟩)
  · obtain ⟨later, sight, into, first⟩ := (isStart s).mp start
    refine ⟨fun late => measureAnswer_of_no_start fun u hu hT => first u hu (by omega), fun inTime => ?_⟩
    have firstStart : FirstStart L level T t0 s := ⟨later, by omega, ⟨sight, into⟩, first⟩
    refine ⟨fun forever => measureAnswer_of_no_end firstStart fun u hu _ => forever u hu, fun e later' ended whole => ?_⟩
    exact ⟨fun late => measureAnswer_of_no_end firstStart fun u hu hT => whole u hu (by omega),
      measureAnswer_of_end firstStart later' ended whole⟩

end Sys2Proof.Machine
end

section
/-!
The accept step of each command: its next state and its frame (`30_encoding.md` rule R53), the ports, and which input ports
have a part in a step (`10_state.md` section 2).
-/

namespace Sys2Proof.Machine

/-! ## Accept steps -/

/-- Settles O2: the accept step latches the word and begins a burst. -/
theorem calAcceptStartsOneBurst : Obligations.CalAcceptStartsOneBurst := fun _ _ _ => ⟨rfl, rfl⟩

/-- Settles O3: the accept step latches the word, clears the counts and begins a burst. -/
theorem calautoAcceptStartsFirstAttempt : Obligations.CalautoAcceptStartsFirstAttempt := fun _ _ _ _ => ⟨rfl, rfl⟩

/-- The state of a read command that begins (`42_read.md` R94). -/
def State.beginRead (s : State) (i : Instr) : State :=
  { s with
    rspv := false, opl := i.opcode, auxl := i.aux, tl := i.arg, cpl := s.cp, n := 0#4, ph := .sync,
    req := some (.measure .low i.arg) }

theorem startRead_of_configured {s : State} (i : Instr) (configured : s.cpv = true) :
    (s.accept i.opcode i.aux i.arg).startRead = s.beginRead i :=
  if_pos configured

/-- A read command whose pin index, if it has one, is in range begins while `CPV` = 1 (`42_read.md` R94, `43_accessors.md`
R110, R113). -/
theorem exec_of_configured {i : Instr} {s : State} (isRead : IsReadOpcode i.opcode)
    (inRange : ∀ idx T, i = .readpin idx T → idx ≤ 11) (configured : s.cpv = true) :
    exec i s = .next (s.beginRead i) := by
  cases i with
  | setcp | cal | calauto => simp +decide [IsReadOpcode, Instr.opcode] at isRead
  | read T => exact congrArg _ (startRead_of_configured (.read T) configured)
  | readarr T => exact congrArg _ (startRead_of_configured (.readarr T) configured)
  | readpin idx T =>
    exact (if_neg (inRange idx T rfl).not_gt).trans (congrArg _ (startRead_of_configured (.readpin idx T) configured))

/-- Settles O4: `READ` is a read command without a pin index. -/
theorem readAcceptSeeksSyncIfConfigured : Obligations.ReadAcceptSeeksSyncIfConfigured :=
  fun _ _ _ => ⟨rfl, exec_of_configured (.inl rfl) nofun, exec_of_not_configured (.inl rfl) nofun⟩

/-- Settles O5: the index is in range, so the two steps are those of a read command. -/
theorem readpinAcceptSeeksSyncIfConfigured : Obligations.ReadpinAcceptSeeksSyncIfConfigured := by
  intro s idx T _ inRange
  have pin (idx' : Nat) (T' : Word) (h : Instr.readpin idx T = .readpin idx' T') : idx' ≤ 11 := by cases h; exact inRange
  exact ⟨rfl, exec_of_configured (.inr (.inl rfl)) pin, exec_of_not_configured (.inr (.inl rfl)) pin⟩

/-- Settles O7: `READARR` is a read command without a pin index. -/
theorem readarrAcceptSeeksSyncIfConfigured : Obligations.ReadarrAcceptSeeksSyncIfConfigured :=
  fun _ _ _ => ⟨rfl, exec_of_configured (.inr (.inr rfl)) nofun, exec_of_not_configured (.inr (.inr rfl)) nofun⟩

/-! ## What an accept step leaves unchanged -/

/-- What the accept step of `i` from `s` to `t` leaves unchanged (`30_encoding.md` R53, `10_state.md` R13). -/
def Instr.Frame (i : Instr) (s t : State) : Prop :=
  t.opl = i.opcode ∧ t.auxl = i.aux ∧ t.tl = i.arg ∧
  t.inputs = s.inputs ∧ t.edges = s.edges ∧ t.ref = s.ref ∧
  t.k = s.k ∧ t.acc = s.acc ∧ t.minr = s.minr ∧ t.maxr = s.maxr ∧
  (i.opcode ≠ 0x1#4 → t.cp = s.cp ∧ t.cpv = s.cpv) ∧
  (¬ IsReadOpcode i.opcode → t.cpl = s.cpl) ∧
  (i.opcode = 0x1#4 → t.n = s.n) ∧
  (i.opcode ≠ 0x3#4 → t.a = s.a ∧ t.kd = s.kd ∧ t.sum = s.sum) ∧
  (t.ph ≠ .idle → t.rsp = s.rsp ∧ t.rspv = false)

theorem frame_of_complete (i : Instr) (s : State) (st : Status) (p : Word) :
    Instr.Frame i s ((s.accept i.opcode i.aux i.arg).complete st p) :=
  ⟨rfl, rfl, rfl, rfl, rfl, rfl, rfl, rfl, rfl, rfl, fun _ => ⟨rfl, rfl⟩, fun _ => rfl, fun _ => rfl,
    fun _ => ⟨rfl, rfl, rfl⟩, fun busy => absurd rfl busy⟩

theorem frame_of_startRead {i : Instr} (s : State) (isRead : IsReadOpcode i.opcode) :
    Instr.Frame i s (s.accept i.opcode i.aux i.arg).startRead := by
  obtain ⟨-, hstart⟩ | ⟨-, hstart⟩ := startRead_cases (s.accept i.opcode i.aux i.arg) <;> rw [hstart]
  · have notSetcp : i.opcode ≠ 0x1#4 := by rintro h; simp +decide [h, IsReadOpcode] at isRead
    exact ⟨rfl, rfl, rfl, rfl, rfl, rfl, rfl, rfl, rfl, rfl, fun _ => ⟨rfl, rfl⟩, fun notRead => absurd isRead notRead,
      fun h => absurd h notSetcp, fun _ => ⟨rfl, rfl, rfl⟩, fun _ => ⟨rfl, rfl⟩⟩
  · exact frame_of_complete i s _ _

theorem exec_frame {i : Instr} {s t : State} (h : exec i s = .next t) : Instr.Frame i s t := by
  cases i with
  | setcp p =>
    by_cases legal : LegalPeriod p.toNat
    · cases (exec_setcp_of_legalPeriod s legal).symm.trans h
      exact ⟨rfl, rfl, rfl, rfl, rfl, rfl, rfl, rfl, rfl, rfl, fun other => absurd rfl other, fun _ => rfl, fun _ => rfl,
        fun _ => ⟨rfl, rfl, rfl⟩, fun busy => absurd rfl busy⟩
    · cases (exec_setcp_of_not_legalPeriod s legal).symm.trans h
      exact frame_of_complete (.setcp p) s _ _
  | cal T =>
    cases h
    exact ⟨rfl, rfl, rfl, rfl, rfl, rfl, rfl, rfl, rfl, rfl, fun _ => ⟨rfl, rfl⟩, fun _ => rfl,
      fun setcp => absurd setcp (by simp +decide [Instr.opcode]), fun _ => ⟨rfl, rfl, rfl⟩, fun _ => ⟨rfl, rfl⟩⟩
  | calauto nf T =>
    cases h
    exact ⟨rfl, rfl, rfl, rfl, rfl, rfl, rfl, rfl, rfl, rfl, fun _ => ⟨rfl, rfl⟩, fun _ => rfl,
      fun setcp => absurd setcp (by simp +decide [Instr.opcode]), fun other => absurd rfl other, fun _ => ⟨rfl, rfl⟩⟩
  | read T =>
    cases h
    exact frame_of_startRead s (.inl rfl)
  | readarr T =>
    cases h
    exact frame_of_startRead s (.inr (.inr rfl))
  | readpin idx T =>
    by_cases above : 11 < idx
    · cases (exec_readpin_of_out_of_range s T above).symm.trans h
      exact frame_of_complete (.readpin idx T) s _ _
    · cases (if_neg above).symm.trans h
      exact frame_of_startRead s (.inr (.inl rfl))

/-- Settles O10: `exec_frame` is the statement, command by command. -/
theorem acceptStepFrame : Obligations.AcceptStepFrame := fun _ _ _ _ => exec_frame

/-! ## The edge and the ports -/

/-- Settles O11: the accept step of a word that decodes is `exec` of its command. -/
theorem stepRunsTheDecodedCommand : Obligations.StepRunsTheDecodedCommand :=
  fun s _ idle noReset valid hi => (step_of_command idle noReset valid).trans (acceptWord_of_decode s.tick hi)

/-- Of a coming edge, `rst` and `elapsed` have a part in a step, and what the step of the core reads. -/
theorem step_of_other_edge {s : State} {e : Edge} {rest : List Edge} (e' : Edge) (inputs : s.inputs = e :: rest)
    (rst : e'.rst = e.rst) (elapsed : e'.elapsed = e.elapsed) (core : coreStep e' s.tick = coreStep e s.tick) :
    step { s with inputs := e' :: rest } = step s := by
  have edge : s.edge = e := by rw [State.edge, inputs]
  have tick : State.tick { s with inputs := e' :: rest } = s.tick := by
    simp only [State.tick, State.edge, State.passTime, inputs, rst, elapsed, List.tail_cons]
  have edge' : State.edge { s with inputs := e' :: rest } = e' := rfl
  rw [step, step, clockEdge, clockEdge, tick, edge', edge, rst, core]

/-- The answer ports alone have a part in taking an answer. -/
theorem takeAnswer_of_other_command (s : State) (e : Edge) (v : Bool) (w : CmdWord) :
    s.takeAnswer { e with cmdValid := v, cmd := w } = s.takeAnswer e := rfl

/-- Settles O12: an idle core takes the accept step or none, and in a busy core `coreStep` reads the answer ports only. -/
theorem commandAcceptedOnlyWhenIdle : Obligations.CommandAcceptedOnlyWhenIdle := by
  refine fun s => ⟨decide_eq_true_iff, ?_, step_of_command, step_of_no_command, fun busy e rest v w inputs => ?_⟩
  · simp [State.outputs, State.busy]
  · refine step_of_other_edge _ inputs rfl rfl ?_
    have busy' : s.tick.ph ≠ .idle := busy
    rw [coreStep, coreStep, if_neg busy', if_neg busy', takeAnswer_of_other_command]

/-- Settles O13: in an idle core `coreStep` reads the command port only. -/
theorem idleCoreIgnoresAnswers : Obligations.IdleCoreIgnoresAnswers := by
  intro s e rest v tmo d idle inputs
  refine step_of_other_edge _ inputs rfl rfl ?_
  have idle' : s.tick.ph = .idle := idle
  rw [coreStep, coreStep, if_pos idle', if_pos idle']

/-- Settles O15: the fields of the reset state and its ports are read off. -/
theorem resetStateIsIdleAndUnconfigured : Obligations.ResetStateIsIdleAndUnconfigured :=
  ⟨rfl, rfl, rfl, rfl, rfl, rfl, rfl⟩

theorem level_code_eq (l : Level) : l.code = if l = .high then 1#1 else 0#1 := by cases l <;> rfl

/-- The three request ports show the outstanding request (`30_encoding.md` R57). -/
theorem outputs_of_request {s : State} {r : Request} (hreq : s.req = some r) :
    s.outputs.psReqKind = r.kindCode ∧ s.outputs.psReqLevel = r.level.code ∧ s.outputs.psReqTmo = r.timeout := by
  refine ⟨?_, ?_, ?_⟩ <;> simp only [State.outputs, hreq]

/-- Settles O60: each port is a field of the state, or of the outstanding request. -/
theorem portsShowTheState : Obligations.PortsShowTheState := by
  refine fun s => ⟨rfl, outputs_rsp_of_rspv, rfl, fun valid => if_pos valid, Option.isSome_iff_ne_none, fun l T hreq => ?_,
    fun l T hreq => ?_⟩
  all_goals
    rw [← level_code_eq]
    exact outputs_of_request hreq

end Sys2Proof.Machine
end

section
/-!
What an answer step leaves unchanged, that it reports a change of the period, and how long a busy core stays busy
(`20_memory.md` sections 2, 3, `60_exceptions.md` section 4, `70_reset_and_hazards.md` section 4).
-/

namespace Sys2Proof.Machine

/-! ## A change of the period is reported -/

/-- The command has ended and reports, with `OK` or `CalDegraded`, the period it installed (`60_exceptions.md` R129). -/
def State.ReportsPeriod (t : State) : Prop :=
  t.runEnded ∧ t.cpv = true ∧ (rspStatus t.rsp = 0x00#8 ∨ rspStatus t.rsp = 0x06#8) ∧ rspPayload t.rsp = t.cp

theorem installed_reportsPeriod (s : State) {st : Status} (p : Word) (success : IsSuccess st) :
    ((s.setPeriod p).complete st p).ReportsPeriod := by
  refine ⟨complete_runEnded _ _ _, rfl, ?_, rspPayload_rspWord st p⟩
  rw [State.complete_rsp, rspStatus_rspWord]
  exact success.imp (congrArg Status.code) (congrArg Status.code)

/-- A command that changes the period in its accept step is a `SETCP`, and reports it. -/
theorem acceptWord_reportsPeriod {w : CmdWord} {s t : State} (h : acceptWord w s = .next t) :
    s.SamePeriod t ∨ t.ReportsPeriod := by
  obtain same | ⟨p, hw, legal, -⟩ := acceptWord_period h
  · exact .inl same
  · cases (exec_setcp_of_legalPeriod s legal).symm.trans ((acceptWord_of_decode s hw).symm.trans h)
    exact .inr (installed_reportsPeriod _ p (.inl rfl))

theorem endCalibration_reportsPeriod (s : State) {st : Status} {p : Option Nat} (success : p ≠ none → IsSuccess st) :
    s.SamePeriod (s.endCalibration st p) ∨ (s.endCalibration st p).ReportsPeriod := by
  cases p with
  | none => exact .inl ⟨rfl, rfl⟩
  | some v => exact .inr (installed_reportsPeriod _ _ (success nofun))

theorem calOutcome_success {r : Attempt} (installs : (calOutcome r).2 ≠ none) : IsSuccess (calOutcome r).1 := by
  cases r with
  | det p => exact .inl rfl
  | indet | tmo => exact absurd rfl installs

theorem finishOutcome_success {nf : Bool} {kd sum : Nat} (installs : (finishOutcome nf kd sum).2 ≠ none) :
    IsSuccess (finishOutcome nf kd sum).1 := by
  obtain ⟨-, hout⟩ | ⟨-, -, hout⟩ | ⟨-, -, hout⟩ := finishOutcome_cases nf kd sum <;> rw [hout] at installs ⊢
  · exact .inl rfl
  · exact absurd rfl installs
  · exact .inr rfl

theorem autoAttemptDone_reportsPeriod (s : State) (p : Option Nat) :
    s.SamePeriod (s.autoAttemptDone p) ∨ (s.autoAttemptDone p).ReportsPeriod := by
  rw [autoAttemptDone_eq]
  split
  · exact .inl (by simp [State.SamePeriod])
  · obtain same | reports := endCalibration_reportsPeriod (s.countAttempt p) finishOutcome_success
    · exact .inl (by simpa [State.SamePeriod, State.finish] using same)
    · exact .inr reports

theorem attemptEnd_reportsPeriod {r : Attempt} {s t : State} (h : attemptEnd r s = .next t) :
    s.SamePeriod t ∨ t.ReportsPeriod := by
  unfold attemptEnd at h
  split at h
  · cases h
    exact endCalibration_reportsPeriod s calOutcome_success
  split at h
  · cases h
    cases r with
    | det p => exact autoAttemptDone_reportsPeriod s (some p)
    | indet => exact autoAttemptDone_reportsPeriod s none
    | tmo => exact .inl ⟨rfl, rfl⟩
  · cases h

theorem calsAnswer_reportsPeriod {ans : Answer} {s t : State} (h : calsAnswer ans s = .next t) :
    s.SamePeriod t ∨ t.ReportsPeriod := by
  cases ans with
  | ok => cases h
  | timedOut => exact attemptEnd_reportsPeriod h
  | dur d =>
    simp only [calsAnswer] at h
    split at h
    · cases h
      exact .inl ⟨rfl, rfl⟩
    · exact (attemptEnd_reportsPeriod h :)

theorem answerStep_reportsPeriod {ans : Answer} {s t : State} (h : answerStep ans s = .next t) :
    s.SamePeriod t ∨ t.ReportsPeriod := by
  obtain same | ⟨cals, -⟩ := answerStep_period h
  · exact .inl same
  · unfold answerStep at h
    rw [cals] at h
    split at h
    · exact calsAnswer_reportsPeriod h
    · cases h

/-- Settles O54: the steps that change the period are an accepted `SETCP` and the end of a calibration, and both report it. -/
theorem periodChangeIsReported : Obligations.PeriodChangeIsReported := by
  intro s t noReset h changed
  have either : s.SamePeriod t ∨ t.ReportsPeriod := by
    obtain ⟨reset, -⟩ | ⟨-, -, -, hs⟩ | ⟨-, -, -, hs⟩ | ⟨-, -, -, hs⟩ | ⟨ans, u, -, -, taken, hs⟩ := step_cases s
    · simp [noReset] at reset
    · cases hs.symm.trans h
      exact .inl ⟨rfl, rfl⟩
    · exact (acceptWord_reportsPeriod (hs.symm.trans h) :)
    · cases hs.symm.trans h
      exact .inl ⟨rfl, rfl⟩
    · obtain ⟨-, -, hu, -⟩ := takeAnswer_some taken
      rw [hs, hu] at h
      exact (answerStep_reportsPeriod h :)
  obtain ⟨cp, cpv⟩ | reports := either
  · simp [cp, cpv] at changed
  · exact reports

/-! ## What an answer step writes, phase by phase -/

/-- The response is written only where the command ends. -/
def State.KeepsResponse (s t : State) : Prop := t.ph ≠ .idle → t.rsp = s.rsp ∧ t.rspv = s.rspv

theorem readEnd_writes {r : ReadResult} {s t : State} (h : readEnd r s = .next t) : ∃ st p, t = s.complete st p := by
  obtain ⟨st, p, -, hend⟩ | ⟨-, hend⟩ := readEnd_cases r s <;> cases hend.symm.trans h
  exact ⟨st, p, rfl⟩

theorem complete_keepsResponse (s u : State) (st : Status) (p : Word) : s.KeepsResponse (u.complete st p) :=
  fun busy => absurd rfl busy

/-- In `SYNC`, `N`, the phase, the request and the response. -/
theorem syncAnswer_writes {ans : Answer} {s t : State} (h : syncAnswer ans s = .next t) :
    s.KeepsResponse t ∧
      ∃ n ph req rsp rspv, t = { s with n := n, ph := ph, req := req, rsp := rsp, rspv := rspv } := by
  cases ans with
  | ok => cases h
  | timedOut =>
    obtain ⟨st, p, rfl⟩ := readEnd_writes h
    exact ⟨complete_keepsResponse _ _ _ _, _, _, _, _, _, rfl⟩
  | dur d =>
    simp only [syncAnswer] at h
    split at h
    · cases h
      exact ⟨fun _ => ⟨rfl, rfl⟩, _, _, _, _, _, rfl⟩
    split at h
    · obtain ⟨st, p, rfl⟩ := readEnd_writes h
      exact ⟨complete_keepsResponse _ _ _ _, _, _, _, _, _, rfl⟩
    · cases h
      exact ⟨fun _ => ⟨rfl, rfl⟩, _, _, _, _, _, rfl⟩

/-- In `DSTART`, `K` and `ACC`, the phase, the request and the response. -/
theorem dstartAnswer_writes {ans : Answer} {s t : State} (h : dstartAnswer ans s = .next t) :
    s.KeepsResponse t ∧
      ∃ k acc ph req rsp rspv, t = { s with k := k, acc := acc, ph := ph, req := req, rsp := rsp, rspv := rspv } := by
  cases ans with
  | dur d => cases h
  | timedOut =>
    obtain ⟨st, p, rfl⟩ := readEnd_writes h
    exact ⟨complete_keepsResponse _ _ _ _, _, _, _, _, _, _, rfl⟩
  | ok =>
    cases h
    exact ⟨fun _ => ⟨rfl, rfl⟩, _, _, _, _, _, _, rfl⟩

/-- In `BITS` the same registers. -/
theorem bitsAnswer_writes {ans : Answer} {s t : State} (h : bitsAnswer ans s = .next t) :
    s.KeepsResponse t ∧
      ∃ k acc ph req rsp rspv, t = { s with k := k, acc := acc, ph := ph, req := req, rsp := rsp, rspv := rspv } := by
  cases ans with
  | ok => cases h
  | timedOut =>
    obtain ⟨st, p, rfl⟩ := readEnd_writes h
    exact ⟨complete_keepsResponse _ _ _ _, _, _, _, _, _, _, rfl⟩
  | dur d =>
    simp only [bitsAnswer] at h
    split at h
    · obtain ⟨st, p, rfl⟩ := readEnd_writes h
      exact ⟨complete_keepsResponse _ _ _ _, _, _, _, _, _, _, rfl⟩
    split at h
    · obtain ⟨st, p, rfl⟩ := readEnd_writes h
      exact ⟨complete_keepsResponse _ _ _ _, _, _, _, _, _, _, rfl⟩
    · cases h
      exact ⟨fun _ => ⟨rfl, rfl⟩, _, _, _, _, _, _, rfl⟩

/-- The registers a calibration may write are the only ones in which `t` differs from `s`. -/
def State.CalibrationStep (s t : State) : Prop :=
  s.KeepsResponse t ∧
    ∃ n minr maxr a kd sum cp cpv ph req rsp rspv, t = { s with
      n := n, minr := minr, maxr := maxr, a := a, kd := kd, sum := sum, cp := cp, cpv := cpv,
      ph := ph, req := req, rsp := rsp, rspv := rspv }

theorem endCalibration_calibrationStep (s : State) (st : Status) (p : Option Nat) :
    s.CalibrationStep (s.endCalibration st p) := by
  cases p <;> exact ⟨fun busy => absurd rfl busy, _, _, _, _, _, _, _, _, _, _, _, _, rfl⟩

theorem autoAttemptDone_calibrationStep (s : State) (p : Option Nat) : s.CalibrationStep (s.autoAttemptDone p) := by
  rw [autoAttemptDone_eq]
  split
  · cases p <;> exact ⟨fun _ => ⟨rfl, rfl⟩, _, _, _, _, _, _, _, _, _, _, _, _, rfl⟩
  · obtain ⟨keeps, n, minr, maxr, a, kd, sum, cp, cpv, ph, req, rsp, rspv, h⟩ :=
      endCalibration_calibrationStep (s.countAttempt p)
        (finishOutcome (noFallback (s.countAttempt p).auxl) (s.countAttempt p).kd.toNat (s.countAttempt p).sum.toNat).1
        (finishOutcome (noFallback (s.countAttempt p).auxl) (s.countAttempt p).kd.toNat (s.countAttempt p).sum.toNat).2
    cases p <;> exact ⟨keeps, _, _, _, _, _, _, _, _, _, _, _, _, h⟩

theorem attemptEnd_calibrationStep {r : Attempt} {s t : State} (h : attemptEnd r s = .next t) : s.CalibrationStep t := by
  unfold attemptEnd at h
  split at h
  · cases h
    exact endCalibration_calibrationStep s _ _
  split at h
  · cases h
    cases r with
    | det p => exact autoAttemptDone_calibrationStep s (some p)
    | indet => exact autoAttemptDone_calibrationStep s none
    | tmo => exact endCalibration_calibrationStep s .calTimeout none
  · cases h

theorem calsAnswer_calibrationStep {ans : Answer} {s t : State} (h : calsAnswer ans s = .next t) : s.CalibrationStep t := by
  cases ans with
  | ok => cases h
  | timedOut => exact attemptEnd_calibrationStep h
  | dur d =>
    simp only [calsAnswer] at h
    split at h
    · cases h
      exact ⟨fun _ => ⟨rfl, rfl⟩, _, _, _, _, _, _, _, _, _, _, _, _, rfl⟩
    · obtain ⟨keeps, n, minr, maxr, a, kd, sum, cp, cpv, ph, req, rsp, rspv, ht⟩ := attemptEnd_calibrationStep h
      exact ⟨keeps, _, _, _, _, _, _, _, _, _, _, _, _, ht⟩

/-- The frame of an answer step, by phase (`20_memory.md` section 3, `10_state.md` section 4). -/
def State.AnswerFrame (s t : State) : Prop :=
  t.opl = s.opl ∧ t.auxl = s.auxl ∧ t.tl = s.tl ∧ t.cpl = s.cpl ∧ t.inputs = s.inputs ∧ t.ref = s.ref ∧
  (ReadPhase s.ph → t.cp = s.cp ∧ t.cpv = s.cpv ∧ t.minr = s.minr ∧ t.maxr = s.maxr ∧ t.a = s.a ∧ t.kd = s.kd ∧ t.sum = s.sum) ∧
  (s.ph = .sync → t.k = s.k ∧ t.acc = s.acc) ∧
  (s.ph = .dstart ∨ s.ph = .bits → t.n = s.n) ∧
  (s.ph = .cals → t.k = s.k ∧ t.acc = s.acc) ∧
  s.KeepsResponse t

theorem answerStep_frame {ans : Answer} {s t : State} (h : answerStep ans s = .next t) : s.AnswerFrame t := by
  unfold answerStep at h
  split at h
  · cases phase : s.ph <;> rw [phase] at h
    case idle => cases h
    case sync =>
      obtain ⟨keeps, n, ph, req, rsp, rspv, rfl⟩ := syncAnswer_writes h
      simp [State.AnswerFrame, phase, keeps]
    case dstart =>
      obtain ⟨keeps, k, acc, ph, req, rsp, rspv, rfl⟩ := dstartAnswer_writes h
      simp [State.AnswerFrame, phase, keeps]
    case bits =>
      obtain ⟨keeps, k, acc, ph, req, rsp, rspv, rfl⟩ := bitsAnswer_writes h
      simp [State.AnswerFrame, phase, keeps]
    case cals =>
      obtain ⟨keeps, n, minr, maxr, a, kd, sum, cp, cpv, ph, req, rsp, rspv, rfl⟩ := calsAnswer_calibrationStep h
      simp [State.AnswerFrame, phase, keeps, ReadPhase]
  · cases h

/-- Settles O55: a busy core waits, and changes no register, or takes the answer step of its phase. -/
theorem runningCommandFrame : Obligations.RunningCommandFrame := by
  intro s t busy noReset h
  obtain ⟨reset, -⟩ | ⟨-, idle, -⟩ | ⟨-, idle, -⟩ | ⟨-, -, -, hs⟩ | ⟨ans, u, -, -, taken, hs⟩ := step_cases s
  · simp [noReset] at reset
  · exact absurd idle busy
  · exact absurd idle busy
  · cases hs.symm.trans h
    simp
  · obtain ⟨-, -, hu, -⟩ := takeAnswer_some taken
    rw [hs, hu] at h
    obtain ⟨opl, auxl, tl, cpl, inputs, -, frame⟩ := answerStep_frame h
    exact ⟨opl, auxl, tl, cpl, inputs, frame⟩

/-! ## The outside world -/

/-- Without a reference source none is attached while time passes. -/
theorem passTime_of_none {s : State} (e : Edge) (href : s.ref = none) : s.passTime e = none := by rw [State.passTime, href]

/-- A step takes one edge from the inputs, and attaches no reference source. -/
theorem step_world {s t : State} (h : step s = .next t) : t.inputs = s.inputs.tail ∧ (s.ref = none → t.ref = none) := by
  have tick : s.ref = none → s.tick.ref = none := passTime_of_none s.edge
  obtain ⟨-, hs⟩ | ⟨-, -, -, hs⟩ | ⟨-, -, -, hs⟩ | ⟨-, -, -, hs⟩ | ⟨ans, u, -, -, taken, hs⟩ := step_cases s
  · cases hs.symm.trans h
    exact ⟨rfl, tick⟩
  · cases hs.symm.trans h
    exact ⟨rfl, tick⟩
  · obtain ⟨i, u, -, haccept, -⟩ | ⟨-, -, haccept⟩ := acceptWord_cases s.edge.cmd s.tick
    · obtain ⟨-, -, -, inputs, -, ref, -⟩ := exec_frame (haccept.symm.trans (hs.symm.trans h))
      exact ⟨inputs, fun href => ref.trans (tick href)⟩
    · cases haccept.symm.trans (hs.symm.trans h)
      exact ⟨rfl, tick⟩
  · cases hs.symm.trans h
    exact ⟨rfl, tick⟩
  · obtain ⟨-, -, hu, hnone, -⟩ := takeAnswer_some taken
    obtain ⟨-, -, -, -, inputs, ref, -⟩ := answerStep_frame (hs.symm.trans h)
    exact ⟨inputs.trans (by rw [hu]; rfl), fun href => ref.trans (hnone (tick href))⟩

/-! ## Waiting -/

/-- The coming edge is the first of the inputs, or a quiet one. -/
theorem edge_of_all {s : State} {P : Edge → Prop} (quiet : P Edge.quiet) (all : ∀ e ∈ s.inputs, P e) : P s.edge := by
  unfold State.edge
  split
  · exact quiet
  next inputs => exact all _ (by simp [inputs])

/-- A busy core to which no answer comes takes the edge and nothing else (`20_memory.md` R37). -/
theorem step_of_unanswered {s : State} (busy : s.ph ≠ .idle) (href : s.ref = none)
    (silent : s.edge.rst = false ∧ s.edge.ansValid = false) :
    step s = .next { s with inputs := s.inputs.tail, edges := s.edges + 1 } := by
  have none_taken : s.tick.takeAnswer s.edge = none := by
    cases hreq : s.req <;> simp [State.takeAnswer, hreq, passTime_of_none, href, silent.2]
  have tick : s.tick = { s with inputs := s.inputs.tail, edges := s.edges + 1 } := by
    rw [State.tick, State.passTime, href]
  obtain ⟨reset, -⟩ | ⟨-, idle, -⟩ | ⟨-, idle, -⟩ | ⟨-, -, -, hs⟩ | ⟨_, _, -, -, taken, -⟩ := step_cases s
  · simp [silent.1] at reset
  · exact absurd idle busy
  · exact absurd idle busy
  · rw [hs, tick]
  · cases none_taken.symm.trans taken

theorem runEdges_succ {s t : State} (k : Nat) (h : step s = .next t) : runEdges (k + 1) s = runEdges k t := by
  rw [runEdges, h]

/-- Settles O57: by induction on the edges, at each of which the core waits. -/
theorem unansweredCoreWaitsForEver : Obligations.UnansweredCoreWaitsForEver := by
  intro s k busy href silent
  induction k generalizing s with
  | zero => rfl
  | succ k ih =>
    rw [runEdges_succ k (step_of_unanswered busy href (edge_of_all ⟨rfl, rfl⟩ silent))]
    have later := ih { s with inputs := s.inputs.tail, edges := s.edges + 1 } busy href
      fun e he => silent e (List.mem_of_mem_tail he)
    rw [later, List.drop_tail, Nat.add_assoc, Nat.add_comm 1 k]

/-! ## Every command ends -/

/-- The accept step leaves no more answers to come than the command's bound (`70_reset_and_hazards.md` R149). -/
theorem exec_answersLeft {i : Instr} {s t : State} (h : exec i s = .next t) : t.answersLeft ≤ i.answerBound := by
  have read (op aux : Nibble) (T : Word) : (s.accept op aux T).startRead.answersLeft ≤ 26 := by
    obtain ⟨-, hstart⟩ | ⟨-, hstart⟩ := startRead_cases (s.accept op aux T) <;> simp [hstart, State.answersLeft]
  cases i with
  | setcp p =>
    simp only [exec, execSetcp] at h
    split at h <;> cases h <;> exact Nat.le_refl _
  | cal T =>
    cases h
    simp +decide [State.answersLeft, Instr.answerBound]
  | calauto nf T =>
    cases h
    simp [State.answersLeft, Instr.answerBound]
  | read T | readarr T =>
    cases h
    exact read _ _ _
  | readpin idx T =>
    simp only [exec, execReadpin] at h
    split at h
    · cases h
      exact Nat.zero_le _
    · cases h
      exact read _ _ _

/-- While a command runs there is an answer to come. -/
theorem answersLeft_pos {s : State} (inv : s.Inv) (busy : s.ph ≠ .idle) : 0 < s.answersLeft := by
  unfold State.answersLeft
  cases phase : s.ph with
  | idle => exact absurd phase busy
  | sync | dstart => simp
  | bits => simpa using inv.kRunning phase
  | cals =>
    have := inv.nRunning (.inr phase)
    simp only
    split <;> omega

/-- A step to which an answer comes advances the running command. -/
theorem step_advances {s : State} (inv : s.Inv) (busy : s.ph ≠ .idle) (href : s.ref = none)
    (answered : s.edge.rst = false ∧ s.edge.ansValid = true) : s.AdvancesTo (step s) := by
  obtain ⟨reset, -⟩ | ⟨-, idle, -⟩ | ⟨-, idle, -⟩ | ⟨-, -, none_taken, -⟩ | ⟨ans, u, -, -, taken, hs⟩ := step_cases s
  · simp [answered.1] at reset
  · exact absurd idle busy
  · exact absurd idle busy
  · have request := inv.request
    cases hreq : s.req with
    | none => cases phase : s.ph <;> simp_all [State.phaseRequest]
    | some r => simp [State.takeAnswer, hreq, passTime_of_none, href, answered.2] at none_taken
  · rw [hs]
    exact takenAnswer_advances inv busy taken

/-- As many answers as can still come bring the running command to its end, by induction on the edges that carry them. -/
theorem runEdges_ends {es rest : List Edge} {s : State} (inv : s.Inv) (busy : s.ph ≠ .idle) (href : s.ref = none)
    (inputs : s.inputs = es ++ rest) (enough : s.answersLeft ≤ es.length)
    (answered : ∀ e ∈ es, e.rst = false ∧ e.ansValid = true) :
    ∃ k t, k ≤ s.answersLeft ∧ runEdges k s = .next t ∧ t.runEnded := by
  have some_left := answersLeft_pos inv busy
  induction es generalizing s with
  | nil => exact absurd enough (Nat.not_le_of_gt some_left)
  | cons e es ih =>
    have edge : s.edge = e := by rw [State.edge, inputs, List.cons_append]
    obtain ⟨t, ht, inv', ended | ⟨busy', fewer⟩⟩ := step_advances inv busy href (edge ▸ answered e (by simp))
    · exact ⟨1, t, some_left, runEdges_succ 0 ht, ended⟩
    · obtain ⟨inputs', href'⟩ := step_world ht
      rw [inputs] at inputs'
      rw [List.length_cons] at enough
      obtain ⟨k, u, hk, hu, ended⟩ := ih inv' busy' (href' href) inputs' (by omega)
        (fun e he => answered e (List.mem_cons_of_mem _ he)) (answersLeft_pos inv' busy')
      exact ⟨k + 1, u, by omega, (runEdges_succ k ht).trans hu, ended⟩

/-- Settles O56: the bound of the accept step, and the induction on the answers that come. -/
theorem everyCommandEndsInBoundedAnswers : Obligations.EveryCommandEndsInBoundedAnswers :=
  ⟨fun _ _ _ _ => exec_answersLeft,
    fun _ _ _ inv busy href inputs all answered => runEdges_ends inv busy href inputs all.ge answered⟩

end Sys2Proof.Machine
end

section
/-!
The step machine against each command as a function of its answers: a command runs, edge by edge, to the outcome its function
gives (`41_calibrate.md` sections 2 to 4, `42_read.md` section 3, `43_accessors.md`).
-/

namespace Sys2Proof.Machine

/-! ## Runs over a script -/

/-- Without a reference source, the coming edges carry the answers of the script, and no matter what besides. -/
def State.Offered (s : State) (script : List Answer) : Prop :=
  s.ref = none ∧ ∃ es later, s.inputs = es ++ later ∧ List.Forall₂ Edge.Carries es script

/-- One edge for each answer of the script up to `rest` has the outcome `out`. -/
def State.Runs (s : State) (script rest : List Answer) (out : Result) : Prop :=
  ∃ used, script = used ++ rest ∧ runEdges used.length s = out

theorem runEdges_one (s : State) : runEdges 1 s = step s := by
  rw [runEdges]
  cases step s <;> rfl

theorem runEdges_add {s t : State} {j : Nat} (k : Nat) (h : runEdges j s = .next t) :
    runEdges (j + k) s = runEdges k t := by
  induction j generalizing s with
  | zero =>
    cases h
    rw [Nat.zero_add]
  | succ j ih =>
    cases hs : step s with
    | next u =>
      rw [runEdges_succ j hs] at h
      rw [Nat.succ_add, runEdges_succ _ hs, ih h]
    | fault r | refused r =>
      rw [runEdges, hs] at h
      cases h

/-- A run takes its edges from the inputs, and attaches no reference source. -/
theorem runEdges_world {s t : State} {k : Nat} (h : runEdges k s = .next t) :
    t.inputs = s.inputs.drop k ∧ (s.ref = none → t.ref = none) := by
  induction k generalizing s with
  | zero =>
    cases h
    exact ⟨rfl, id⟩
  | succ k ih =>
    cases hs : step s with
    | next u =>
      obtain ⟨inputs, ref⟩ := step_world hs
      obtain ⟨inputs', ref'⟩ := ih ((runEdges_succ k hs).symm.trans h)
      exact ⟨by rw [inputs', inputs, List.drop_tail], ref' ∘ ref⟩
    | fault r | refused r =>
      rw [runEdges, hs] at h
      cases h

section
variable {s t : State} {ans : Answer} {script mid rest : List Answer} {out : Result}

theorem State.Offered.answered (h : s.Offered (ans :: script)) : s.Answered ans s.tick := by
  obtain ⟨href, es, later, inputs, carried⟩ := h
  obtain _ | ⟨carries, -⟩ := carried
  exact .inl ⟨href, by rw [State.edge, inputs]; exact carries, rfl⟩

theorem State.Offered.step (h : s.Offered (ans :: script)) (hs : step s = .next t) : t.Offered script := by
  obtain ⟨href, es, later, inputs, carried⟩ := h
  obtain ⟨inputs', href'⟩ := step_world hs
  cases carried with
  | cons _ carried => exact ⟨href' href, _, later, by rw [inputs', inputs, List.cons_append, List.tail_cons], carried⟩

theorem State.Runs.last (hs : Machine.step s = out) : s.Runs (ans :: rest) rest out := ⟨[ans], rfl, (runEdges_one s).trans hs⟩

theorem State.Runs.cons (hs : Machine.step s = .next t) (h : t.Runs script rest out) : s.Runs (ans :: script) rest out := by
  obtain ⟨used, rfl, run⟩ := h
  exact ⟨ans :: used, rfl, (runEdges_succ _ hs).trans run⟩

theorem State.Runs.trans (h : s.Runs script mid (.next t)) (h' : t.Runs mid rest out) : s.Runs script rest out := by
  obtain ⟨used, rfl, run⟩ := h
  obtain ⟨used', rfl, run'⟩ := h'
  exact ⟨used ++ used', (List.append_assoc ..).symm, by rw [List.length_append, runEdges_add _ run, run']⟩

theorem State.Runs.offered (h : s.Runs script rest (.next t)) (offered : s.Offered script) : t.Offered rest := by
  obtain ⟨used, rfl, run⟩ := h
  obtain ⟨href, es, later, inputs, carried⟩ := offered
  obtain ⟨inputs', href'⟩ := runEdges_world run
  have length : used.length ≤ es.length := by rw [carried.length_eq, List.length_append]; omega
  refine ⟨href' href, es.drop used.length, later, ?_, List.forall₂_drop_append es used rest carried⟩
  rw [inputs', inputs, List.drop_append_of_le_length length]

end

/-! ## Reads -/

/-- The registers from which the end of a read makes its report, and the period. -/
def State.SameRead (s u : State) : Prop := u.opl = s.opl ∧ u.auxl = s.auxl ∧ u.cp = s.cp ∧ u.cpv = s.cpv

section
variable {s : State} {script rest : List Answer} {r : ReadResult}

/-- The bits run to the end of the read that `receiveBits` gives. -/
theorem receiveBits_runs {left : Nat} (bits : s.ph = .bits) (hreq : s.req = some (.measure .high s.tl))
    (offered : s.Offered script) (count : s.k.toNat + left = 12) (some_left : 0 < left)
    (h : receiveBits s.cpl.toNat left s.acc script = some (r, rest)) :
    ∃ u, s.SameRead u ∧ s.Runs script rest (readEnd r u) := by
  induction left generalizing s script with
  | zero => exact absurd some_left (Nat.lt_irrefl 0)
  | succ left ih =>
    match script with
    | [] | .ok :: _ => cases h
    | .timedOut :: script =>
      cases h
      have hs := step_of_answered_bits bits hreq offered.answered (.inl rfl)
      exact ⟨s.tick, ⟨rfl, rfl, rfl, rfl⟩, .last hs⟩
    | .dur d :: script =>
      have hs := step_of_answered_bits bits hreq offered.answered (.inr ⟨d, rfl⟩)
      rw [receiveBits] at h
      cases hbit : bitOf s.cpl.toNat d.toNat with
      | none =>
        rw [hbit] at h
        cases h
        exact ⟨s.tick, ⟨rfl, rfl, rfl, rfl⟩, .last (hs.trans (bitsAnswer_of_no_bit hbit))⟩
      | some bit =>
        rw [hbit] at h
        obtain rfl | more := left.eq_zero_or_pos
        · cases h
          have hlast := hs.trans (bitsAnswer_of_last_bit (s := s.tick) hbit count)
          exact ⟨{ s.tick with acc := shiftIn s.acc bit, k := s.k + 1#4 }, ⟨rfl, rfl, rfl, rfl⟩, .last hlast⟩
        · have hnext := hs.trans (bitsAnswer_of_more_bits (s := s.tick) hbit (by simp only [State.tick_k]; omega))
          have counted := count_toNat (n := s.k) (by omega)
          obtain ⟨u, same, runs⟩ := ih (s := { s.tick with
            acc := shiftIn s.acc bit, k := s.k + 1#4, req := some (.measure .high s.tl) })
            bits rfl (offered.step hnext) (by simp only [counted]; omega) more h
          exact ⟨u, same, .cons hnext runs⟩

/-- The wait for data runs to the end of the read that `awaitData` gives. -/
theorem awaitData_runs (dstart : s.ph = .dstart) (hreq : s.req = some (.wait .low (dataStartTimeout s.cpl)))
    (offered : s.Offered script) (h : awaitData s.cpl.toNat script = some (r, rest)) :
    ∃ u, s.SameRead u ∧ s.Runs script rest (readEnd r u) := by
  match script with
  | [] | .dur _ :: _ => cases h
  | .timedOut :: script =>
    cases h
    have hs := step_of_answered_dstart dstart hreq offered.answered (.inl rfl)
    exact ⟨s.tick, ⟨rfl, rfl, rfl, rfl⟩, .last hs⟩
  | .ok :: script =>
    have hs : step s = .next { s.tick with k := 0#4, acc := 0#12, ph := .bits, req := some (.measure .high s.tl) } :=
      step_of_answered_dstart dstart hreq offered.answered (.inr rfl)
    obtain ⟨u, same, runs⟩ := receiveBits_runs (left := Config.nbits) rfl rfl (offered.step hs) rfl (by decide) h
    exact ⟨u, same, .cons hs runs⟩

/-- With `tries` pulses left, the search for sync and what follows it give the result (`42_read.md` R102). -/
def Decodes (c tries : Nat) (script : List Answer) (r : ReadResult) (rest : List Answer) : Prop :=
  (seekSync c tries script = some (false, rest) ∧ r = .timeoutWaitingForSync) ∨
  (∃ mid, seekSync c tries script = some (true, mid) ∧ awaitData c mid = some (r, rest))

/-- The search for sync runs to the end of the read that the decode gives. -/
theorem decodes_runs {tries : Nat} (sync : s.ph = .sync) (hreq : s.req = some (.measure .low s.tl))
    (offered : s.Offered script) (count : s.n.toNat + tries = 13) (some_left : 0 < tries)
    (h : Decodes s.cpl.toNat tries script r rest) : ∃ u, s.SameRead u ∧ s.Runs script rest (readEnd r u) := by
  induction tries generalizing s script with
  | zero => exact absurd some_left (Nat.lt_irrefl 0)
  | succ tries ih =>
    match script with
    | [] | .ok :: _ => simp [Decodes, seekSync] at h
    | .timedOut :: script =>
      have hs := step_of_answered_sync sync hreq offered.answered (.inl rfl)
      obtain ⟨missed, rfl⟩ | ⟨mid, found, -⟩ := h
      · cases missed
        exact ⟨s.tick, ⟨rfl, rfl, rfl, rfl⟩, .last hs⟩
      · cases found
    | .dur d :: script =>
      have hs := step_of_answered_sync sync hreq offered.answered (.inr ⟨d, rfl⟩)
      by_cases window : SyncWindow s.cpl.toNat d.toNat
      · have hnext := hs.trans (syncAnswer_of_window (s := s.tick) window)
        simp only [Decodes, seekSync, if_pos window] at h
        obtain ⟨missed, -⟩ | ⟨mid, found, data⟩ := h
        · cases missed
        · cases found
          obtain ⟨u, same, runs⟩ := awaitData_runs rfl rfl (offered.step hnext) data
          exact ⟨u, same, .cons hnext runs⟩
      · rw [Decodes, seekSync, if_neg window] at h
        obtain rfl | more := tries.eq_zero_or_pos
        · obtain ⟨missed, rfl⟩ | ⟨mid, found, -⟩ := h
          · cases missed
            have hlast := hs.trans (syncAnswer_of_thirteenth (s := s.tick) window count)
            exact ⟨{ s.tick with n := s.n + 1#4 }, ⟨rfl, rfl, rfl, rfl⟩, .last hlast⟩
          · cases found
        · have hnext := hs.trans (syncAnswer_of_earlier (s := s.tick) window (by simp only [State.tick_n]; omega))
          have counted := count_toNat (n := s.n) (by omega)
          obtain ⟨u, same, runs⟩ := ih (s := { s.tick with n := s.n + 1#4, req := some (.measure .low s.tl) })
            sync rfl (offered.step hnext) (by simp only [counted]; omega) more h
          exact ⟨u, same, .cons hnext runs⟩

end

/-! ## From the command on -/

/-- An idle core presented the word of a well-formed command takes its accept step. -/
theorem step_of_presented {i : Instr} {s : State} {e : Edge} {later : List Edge} (idle : s.ph = .idle)
    (inputs : s.inputs = e :: later) (presents : e.Presents (encode i)) (wellFormed : i.wellFormed = true) :
    step s = exec i s.tick := by
  have edge : s.edge = e := by rw [State.edge, inputs]
  obtain ⟨noReset, valid, cmd⟩ := presents
  rw [step_of_command idle (by rw [edge, noReset]) (by rw [edge, valid]), edge, cmd]
  exact acceptWord_of_decode s.tick (decodeEncodeRoundTrip i wellFormed)

section
variable {s t u : State} {script left : List Answer} {e : Edge} {es later : List Edge}

/-- The state after the command's edge is offered the script. -/
theorem offered_of_command (href : s.ref = none) (inputs : s.inputs = e :: (es ++ later))
    (carried : List.Forall₂ Edge.Carries es script) (hs : step s = .next u) : u.Offered script := by
  obtain ⟨inputs', href'⟩ := step_world hs
  exact ⟨href' href, es, later, by rw [inputs', inputs, List.tail_cons], carried⟩

/-- The command's edge, then the script's: how many they are, and which are left. -/
theorem runEdges_of_command (inputs : s.inputs = e :: (es ++ later)) (carried : List.Forall₂ Edge.Carries es script)
    (hs : step s = .next u) (runs : u.Runs script left (.next t)) :
    runEdges (1 + (script.length - left.length)) s = .next t ∧
      t.inputs = es.drop (script.length - left.length) ++ later := by
  obtain ⟨used, rfl, run⟩ := runs
  have consumed : (used ++ left).length - left.length = used.length := by rw [List.length_append]; omega
  have whole : runEdges (1 + used.length) s = .next t := by rw [Nat.add_comm, runEdges_succ _ hs, run]
  have enough : used.length ≤ es.length := by rw [carried.length_eq, List.length_append]; omega
  rw [consumed]
  refine ⟨whole, ?_⟩
  rw [(runEdges_world whole).1, inputs, Nat.add_comm, List.drop_succ_cons, List.drop_append_of_le_length enough]

end

/-- A command with a report is a read command. -/
theorem isReadOpcode_of_report {i : Instr} {r : ReadResult} {out : Status × Word} (h : i.report r = some out) :
    IsReadOpcode i.opcode := by
  cases i with
  | setcp | cal | calauto => cases h
  | read => exact .inl rfl
  | readpin => exact .inr (.inl rfl)
  | readarr => exact .inr (.inr rfl)

theorem wellFormed_of_inRange {i : Instr} (inRange : ∀ idx T, i = .readpin idx T → idx ≤ 11) : i.wellFormed = true := by
  cases i with
  | setcp | cal | calauto | read | readarr => rfl
  | readpin idx T => exact decide_eq_true (by have := inRange idx T rfl; omega)

/-- The latches of a read command make its report. -/
theorem report_of_latches {i : Instr} {s : State} {r : ReadResult} {out : Status × Word}
    (inRange : ∀ idx T, i = .readpin idx T → idx ≤ 11) (h : i.report r = some out) (opl : s.opl = i.opcode)
    (auxl : s.auxl = i.aux) : s.report r = some out := by
  cases i with
  | setcp | cal | calauto => cases h
  | read T => exact (if_pos opl).trans h
  | readpin idx T =>
    have inField : idx % 2 ^ 4 = idx := Nat.mod_eq_of_lt (by have := inRange idx T rfl; omega)
    have isReadpin : s.opl = opcodeReadpin := opl
    rw [State.report, isReadpin, if_neg (by decide), if_pos rfl, auxl, Instr.aux, BitVec.toNat_ofNat, inField]
    exact h
  | readarr T =>
    have isReadarr : s.opl = opcodeReadarr := opl
    rw [State.report, isReadarr, if_neg (by decide), if_neg (by decide), if_pos rfl]
    exact h

/-- Settles O38: the accept step begins the search for sync with `CPL` = `CP`, and the search runs to the end that the decode
gives. -/
theorem readCommandsRunDecode : Obligations.ReadCommandsRunDecode := by
  intro i s script left e es later r out idle href configured hreport inRange inputs presents carried h
  have hs : step s = .next (s.tick.beginRead i) :=
    (step_of_presented idle inputs presents (wellFormed_of_inRange inRange)).trans
      (exec_of_configured (isReadOpcode_of_report hreport) inRange configured)
  obtain ⟨u, ⟨opl, auxl, cp, cpv⟩, runs⟩ := decodes_runs rfl rfl (offered_of_command href inputs carried hs) rfl (by decide)
    (decodeFrame_cases h)
  have hend : readEnd r u = .next (u.complete out.1 out.2) := by
    rw [readEnd, report_of_latches inRange hreport opl auxl]
  rw [hend] at runs
  obtain ⟨run, inputs'⟩ := runEdges_of_command inputs carried hs runs
  exact ⟨_, run, complete_runEnded u _ _, rfl, cp, cpv.trans configured, inputs'⟩

/-- Settles O41: both reads run to the report of the one decode, the second from the state the first ended in. -/
theorem repeatedReadReportsTheSame : Obligations.RepeatedReadReportsTheSame := by
  intro T s script e e' es es' later r idle href configured inputs presents presents' carried carried' h
  have length : es.drop (script.length - 0) = [] := by rw [Nat.sub_zero, ← carried.length_eq, List.drop_length]
  obtain ⟨t, run, ended, rsp, cp, valid, inputs'⟩ := readCommandsRunDecode (.read T) s script [] e es _ r _ idle href
    configured rfl nofun inputs presents carried h
  rw [List.length_nil, length, List.nil_append] at inputs'
  obtain ⟨u, run', ended', rsp', cp', -, -⟩ := readCommandsRunDecode (.read T) t script [] e' es' later r _ ended.1
    ((runEdges_world run).2 href) valid rfl nofun inputs' presents' carried' (cp ▸ h)
  exact ⟨t, u, run, run', ended, ended', rsp'.trans rsp.symm, cp, cp'.trans cp⟩

/-! ## Calibrations -/

/-- The registers from which the end of an attempt goes on, and the period. -/
def State.SameAttempts (s u : State) : Prop :=
  u.opl = s.opl ∧ u.auxl = s.auxl ∧ u.tl = s.tl ∧ u.a = s.a ∧ u.kd = s.kd ∧ u.sum = s.sum ∧ u.cp = s.cp ∧ u.cpv = s.cpv

/-- The sample of the attempt that `MINR` stands for. -/
def State.leastSoFar (s : State) : List Nat := if s.n = 0#4 then [] else [s.minr.toNat]

/-- The sample of the attempt that `MAXR` stands for. -/
def State.greatestSoFar (s : State) : List Nat := if s.n = 0#4 then [] else [s.maxr.toNat]

/-- How the attempt ends with these samples still to come, or with a timeout. -/
def State.attemptWith (s : State) : Option (List Nat) → Attempt
  | some ds => classify (leastOf (s.leastSoFar ++ ds)) (greatestOf (s.greatestSoFar ++ ds))
  | none => .tmo

section
variable {s : State}

theorem leastOf_recordSample (d : Word) (ds : List Nat) :
    leastOf ((s.recordSample d).minr.toNat :: ds) = leastOf (s.leastSoFar ++ d.toNat :: ds) := by
  by_cases first : s.n = 0#4
  · simp [State.recordSample, State.leastSoFar, first]
  · have least : (s.recordSample d).minr.toNat = min s.minr.toNat d.toNat := by
      simp only [State.recordSample, if_neg first]
      split_ifs <;> omega
    rw [least, State.leastSoFar, if_neg first]
    rfl

theorem greatestOf_recordSample (d : Word) (ds : List Nat) :
    greatestOf ((s.recordSample d).maxr.toNat :: ds) = greatestOf (s.greatestSoFar ++ d.toNat :: ds) := by
  by_cases first : s.n = 0#4
  · simp [State.recordSample, State.greatestSoFar, first]
  · have greatest : (s.recordSample d).maxr.toNat = max s.maxr.toNat d.toNat := by
      simp only [State.recordSample, if_neg first]
      split_ifs <;> omega
    rw [greatest, State.greatestSoFar, if_neg first]
    rfl

/-- A recorded sample is one less to come. -/
theorem attemptWith_recordSample {d : Word} (more : s.n.toNat + 1 ≤ 13) (samples : Option (List Nat)) :
    (s.recordSample d).attemptWith samples = s.attemptWith (samples.map (d.toNat :: ·)) := by
  have counted := recordSample_n_toNat d more
  have recorded : (s.recordSample d).n ≠ 0#4 := by
    intro h
    simp [h] at counted
  cases samples with
  | none => rfl
  | some ds =>
    simp only [State.attemptWith, Option.map_some, ← leastOf_recordSample, ← greatestOf_recordSample]
    rw [State.leastSoFar, State.greatestSoFar, if_neg recorded, if_neg recorded, List.singleton_append, List.singleton_append]

/-- The last sample decides the attempt. -/
theorem attemptWith_last (d : Word) :
    s.attemptWith (some [d.toNat]) = classify (s.recordSample d).minr.toNat (s.recordSample d).maxr.toNat := by
  rw [State.attemptWith, ← leastOf_recordSample, ← greatestOf_recordSample]
  rfl

/-- A burst whose first answer is a duration. -/
theorem takeBurst_dur {left : Nat} {d : Word} {script rest : List Answer} {samples : Option (List Nat)}
    (h : takeBurst (left + 1) (.dur d :: script) = some (samples, rest)) :
    ∃ samples', takeBurst left script = some (samples', rest) ∧ samples = samples'.map (d.toNat :: ·) := by
  rw [takeBurst] at h
  split at h
  next ds _ burst =>
    cases h
    exact ⟨some ds, burst, rfl⟩
  next burst =>
    cases h
    exact ⟨none, burst, rfl⟩
  · cases h

/-- A burst runs to the end of its attempt. -/
theorem takeBurst_runs {left : Nat} {script rest : List Answer} {samples : Option (List Nat)} (cals : s.ph = .cals)
    (hreq : s.req = some (.measure .low s.tl)) (offered : s.Offered script) (count : s.n.toNat + left = 13)
    (some_left : 0 < left) (h : takeBurst left script = some (samples, rest)) :
    (s.attemptWith samples).InRange ∧
      ∃ u, s.SameAttempts u ∧ s.Runs script rest (attemptEnd (s.attemptWith samples) u) := by
  induction left generalizing s script samples with
  | zero => exact absurd some_left (Nat.lt_irrefl 0)
  | succ left ih =>
    match script with
    | [] | .ok :: _ => cases h
    | .timedOut :: script =>
      cases h
      have hs := step_of_answered_cals cals hreq offered.answered (.inl rfl)
      exact ⟨nofun, s.tick, ⟨rfl, rfl, rfl, rfl, rfl, rfl, rfl, rfl⟩, .last hs⟩
    | .dur d :: script =>
      have hs := step_of_answered_cals cals hreq offered.answered (.inr ⟨d, rfl⟩)
      obtain ⟨samples', burst, rfl⟩ := takeBurst_dur h
      obtain rfl | more := left.eq_zero_or_pos
      · cases burst
        rw [Option.map_some, attemptWith_last]
        exact ⟨classify_inRange _ _, s.tick.recordSample d, ⟨rfl, rfl, rfl, rfl, rfl, rfl, rfl, rfl⟩,
          .last (hs.trans (calsAnswer_of_last_sample d count))⟩
      · have notLast : s.tick.n.toNat + 1 < 13 := by simp only [State.tick_n]; omega
        have hnext := hs.trans (calsAnswer_of_more_samples d notLast)
        have counted := recordSample_n_toNat d notLast.le
        have recorded : ((s.tick.recordSample d).issue (.measure .low s.tick.tl)).attemptWith samples' =
            s.attemptWith (samples'.map (d.toNat :: ·)) := attemptWith_recordSample (s := s.tick) notLast.le samples'
        rw [← recorded]
        obtain ⟨inRange, u, same, runs⟩ := ih (s := (s.tick.recordSample d).issue (.measure .low s.tick.tl)) cals rfl
          (offered.step hnext) (by rw [State.issue_n, counted, State.tick_n]; omega) more burst
        exact ⟨inRange, u, same, .cons hnext runs⟩

/-- An attempt runs, from the start of its burst, to the end that `calAttempt` gives. -/
theorem calAttempt_runs {script rest : List Answer} {r : Attempt} (cals : s.ph = .cals)
    (hreq : s.req = some (.measure .low s.tl)) (offered : s.Offered script) (first : s.n = 0#4)
    (h : calAttempt script = some (r, rest)) :
    r.InRange ∧ ∃ u, s.SameAttempts u ∧ s.Runs script rest (attemptEnd r u) := by
  have count : s.n.toNat + Config.calSamples = 13 := by rw [first]; rfl
  obtain ⟨ds, burst, rfl⟩ | ⟨burst, rfl⟩ := calAttempt_cases h
  · have fresh : s.attemptWith (some ds) = classify (leastOf ds) (greatestOf ds) := by
      rw [State.attemptWith, State.leastSoFar, State.greatestSoFar, if_pos first, if_pos first, List.nil_append]
    exact fresh ▸ takeBurst_runs cals hreq offered count (by decide) burst
  · exact takeBurst_runs cals hreq offered count (by decide) burst

end

/-- The command has ended with the status and the period, installed and reported, or with payload 0 and the period as it was
(`41_calibrate.md` R79, R84). -/
def State.CalibratedTo (s t : State) (out : Status × Option Nat) : Prop :=
  t.runEnded ∧ t.rsp = rspWord out.1 (BitVec.ofNat 32 (out.2.getD 0)) ∧
    (∀ v, out.2 = some v → t.cp.toNat = v ∧ t.cpv = true) ∧ (out.2 = none → t.cp = s.cp ∧ t.cpv = s.cpv)

theorem endCalibration_calibratedTo (s : State) {out : Status × Option Nat} (legally : InstallsLegally out) :
    s.CalibratedTo (s.endCalibration out.1 out.2) out := by
  refine ⟨endCalibration_runEnded _ _ _, ?_⟩
  obtain ⟨st, _ | v⟩ := out
  · exact ⟨rfl, nofun, fun _ => ⟨rfl, rfl⟩⟩
  · obtain ⟨-, -, upper⟩ := legally v rfl
    have inWord : (BitVec.ofNat 32 v).toNat = v := Nat.mod_eq_of_lt (upper.trans_lt (by decide))
    refine ⟨rfl, ?_, nofun⟩
    rintro _ ⟨⟩
    exact ⟨inWord, rfl⟩

/-- Settles O39: `CAL` runs one attempt, whose end is the outcome. -/
theorem calRunsOneAttempt : Obligations.CalRunsOneAttempt := by
  intro T s script left e es later st p idle href inputs presents carried h
  have hs : step s = .next (s.tick.accept opcodeCal 0#4 T).startBurst := step_of_presented idle inputs presents rfl
  unfold calOnce at h
  split at h
  next r _ attempt =>
    obtain ⟨hout, rfl⟩ := Prod.mk.inj (Option.some.inj h)
    obtain ⟨inRange, u, ⟨opl, -, -, -, -, -, cp, cpv⟩, runs⟩ :=
      calAttempt_runs rfl rfl (offered_of_command href inputs carried hs) rfl attempt
    rw [attemptEnd_of_cal r opl, State.calAttemptEnd] at runs
    obtain ⟨ended, rsp, installed, kept⟩ := endCalibration_calibratedTo u (calOutcome_installsLegally inRange)
    obtain ⟨run, inputs'⟩ := runEdges_of_command inputs carried hs runs
    rw [hout] at run inputs' ended rsp installed kept
    exact ⟨_, run, ended, inputs', rsp, installed, fun none => ⟨(kept none).1.trans cp, (kept none).2.trans cpv⟩⟩
  · cases h

/-! ## `CALAUTO` -/

/-- The counts of the attempts so far are in their ranges (`10_state.md` R17). -/
def State.CountsInRange (s : State) : Prop :=
  s.kd.toNat ≤ s.a.toNat ∧ s.kd.toNat ≤ s.sum.toNat ∧ s.sum.toNat ≤ s.kd.toNat * 265121437

/-- An attempt counted by the machine is one counted by `calAuto`, and the counts stay in their ranges. -/
theorem countAttempt_counts {s : State} {p : Option Nat} (counts : s.CountsInRange) (more : s.a.toNat + 1 ≤ 5)
    (inRange : ∀ v, p = some v → 1 ≤ v ∧ v ≤ 265121437) :
    (s.countAttempt p).CountsInRange ∧
      countedPeriod p (s.kd.toNat, s.sum.toNat) = ((s.countAttempt p).kd.toNat, (s.countAttempt p).sum.toNat) := by
  obtain ⟨kd, lower, upper⟩ := counts
  have counted := attemptCount_toNat more
  cases p with
  | none => exact ⟨⟨by rw [State.countAttempt_a, counted]; exact kd.trans (Nat.le_succ _), lower, upper⟩, rfl⟩
  | some v =>
    obtain ⟨hlower, hupper⟩ := inRange v rfl
    have counted_kd := countAttempt_some_kd_toNat v (s := s) (by omega)
    have counted_sum := countAttempt_some_sum_toNat (s := s) (p := v) (by omega)
    refine ⟨⟨?_, ?_, ?_⟩, by rw [countedPeriod, counted_kd, counted_sum]⟩
    · rw [State.countAttempt_a, counted, counted_kd]
      exact Nat.succ_le_succ kd
    · omega
    · omega

/-- Of an attempt that did not time out, the period it determined, if any, is in range. -/
theorem attempt_inRange_some {p : Option Nat} (inRange : (p.elim Attempt.indet .det).InRange) :
    ∀ v, p = some v → 1 ≤ v ∧ v ≤ 265121437 := by
  rintro v rfl
  exact inRange v rfl

/-- From the start of an attempt, the attempts to come run to the outcome that `calAuto` gives. -/
theorem autoLoop_runs {left : Nat} {s : State} {script rest : List Answer} {out : Status × Option Nat} (cals : s.ph = .cals)
    (hreq : s.req = some (.measure .low s.tl)) (first : s.n = 0#4) (isCalauto : s.opl = opcodeCalauto)
    (offered : s.Offered script) (counts : s.CountsInRange) (attempts : s.a.toNat + left = 5) (some_left : 0 < left)
    (h : autoLoop (noFallback s.auxl) left s.kd.toNat s.sum.toNat script = some (out, rest)) :
    ∃ t, s.Runs script rest (.next t) ∧ s.CalibratedTo t out := by
  induction left generalizing s script with
  | zero => exact absurd some_left (Nat.lt_irrefl 0)
  | succ left ih =>
    obtain ⟨attempt, rfl⟩ | ⟨p, mid, attempt, loop⟩ := autoLoop_cases h
    · obtain ⟨-, u, ⟨opl, -, -, -, -, -, cp, cpv⟩, runs⟩ := calAttempt_runs cals hreq offered first attempt
      rw [attemptEnd_of_calauto _ (opl.trans isCalauto)] at runs
      exact ⟨_, runs, complete_runEnded _ _ _, rfl, nofun, fun _ => ⟨cp, cpv⟩⟩
    · obtain ⟨inRange, u, ⟨opl, auxl, tl, a, kd, sum, cp, cpv⟩, runs⟩ := calAttempt_runs cals hreq offered first attempt
      have counts' : u.CountsInRange := by rw [State.CountsInRange, a, kd, sum]; exact counts
      have more : u.a.toNat + 1 ≤ 5 := by rw [a]; omega
      obtain ⟨counted, hcounted⟩ := countAttempt_counts counts' more (attempt_inRange_some inRange)
      rw [← kd, ← sum, hcounted] at loop
      have done : attemptEnd (p.elim .indet .det) u = .next (u.autoAttemptDone p) := by
        rw [attemptEnd_of_calauto _ (opl.trans isCalauto)]
        cases p <;> rfl
      rw [done] at runs
      have latches : (u.countAttempt p).auxl = s.auxl := by cases p <;> exact auxl
      obtain rfl | again := left.eq_zero_or_pos
      · rw [autoAttemptDone_of_fifth p (by rw [a]; exact attempts), State.finish, latches] at runs
        cases loop
        obtain ⟨ended, rsp, installed, kept⟩ := endCalibration_calibratedTo (u.countAttempt p)
          (finishOutcome_installsLegally (nf := noFallback s.auxl) counted.2.1 counted.2.2)
        refine ⟨_, runs, ended, rsp, installed, fun none => ?_⟩
        rw [(kept none).1, (kept none).2, State.countAttempt_cp, State.countAttempt_cpv]
        exact ⟨cp, cpv⟩
      · rw [autoAttemptDone_of_more p (by rw [a]; omega)] at runs
        obtain ⟨t, runs', ended, rsp, installed, kept⟩ := ih (s := (u.countAttempt p).startBurst) rfl rfl rfl
          (by rw [State.startBurst_opl, State.countAttempt_opl, opl, isCalauto]) (runs.offered offered) counted
          (by rw [State.startBurst_a, State.countAttempt_a, attemptCount_toNat more, a]; omega) again
          (by rw [State.startBurst_auxl, latches]; exact loop)
        refine ⟨t, runs.trans runs', ended, rsp, installed, fun none => ?_⟩
        rw [(kept none).1, (kept none).2, State.startBurst_cp, State.startBurst_cpv, State.countAttempt_cp,
          State.countAttempt_cpv]
        exact ⟨cp, cpv⟩

/-- The flag of `CALAUTO` is the one in its `aux` (`30_encoding.md` R52). -/
theorem noFallback_aux (nf : Bool) (T : Word) : noFallback (Instr.calauto nf T).aux = nf := by
  rw [Instr.aux]
  cases nf <;> decide

/-- Settles O40: the accept step begins the first of the five attempts, which run as `calAuto` says. -/
theorem calautoRunsCalAuto : Obligations.CalautoRunsCalAuto := by
  intro nf T s script left e es later st p idle href inputs presents carried h
  have hs : step s = .next ({ (s.tick.accept opcodeCalauto (Instr.calauto nf T).aux T) with
      a := 0#3, kd := 0#3, sum := 0#35 } : State).startBurst := step_of_presented idle inputs presents rfl
  have counts : State.CountsInRange ({ (s.tick.accept opcodeCalauto (Instr.calauto nf T).aux T) with
      a := 0#3, kd := 0#3, sum := 0#35 } : State).startBurst := ⟨Nat.le_refl _, Nat.le_refl _, Nat.zero_le _⟩
  have loop : autoLoop (noFallback (Instr.calauto nf T).aux) Config.calAttempts 0 0 script = some ((st, p), left) := by
    rw [noFallback_aux]
    exact h
  obtain ⟨t, runs, ended, rsp, installed, kept⟩ := autoLoop_runs rfl rfl rfl rfl (offered_of_command href inputs carried hs)
    counts rfl (by decide) loop
  obtain ⟨run, inputs'⟩ := runEdges_of_command inputs carried hs runs
  exact ⟨t, run, ended, inputs', rsp, installed, kept⟩

end Sys2Proof.Machine
end
